-- ==== Sys2Proof/Word.lean ====
section
/-! DEFINITION. Word.lean: the widths of RCFD-CORE (00_scope.md R8, R10). Bit 0 is the least
significant bit of every vector; every value is an unsigned integer. -/

namespace Sys2Proof

/-- A Frame Byte or packed byte, and the value field (R8 VALUE_W). -/
abbrev Byte := BitVec 8

/-- A 4-bit half of a byte: command code, channel, checksum nibble, ROM address
(R8 CMD_W, CHAN_W, CSUM_W). -/
abbrev Nibble := BitVec 4

/-- The input port `in_row`: the first 24 bit slots of a row, transmitted bit `t_i` at bit `23 - i`
(R8 ROW_PORT_W, R31). -/
abbrev Row := BitVec 24

/-- The input port `in_len`: a row's bit count, saturated at 65535 (R8 LEN_W, R31). -/
abbrev RowLen := BitVec 16

/-- One word of the command ROM (R8 ROM_WORD_W, R115). -/
abbrev RomWord := BitVec 7

/-- A category or render-mode code (R116). -/
abbrev Code3 := BitVec 3

/-- The three normalized Frame Bytes N0, N1, N2 (R14, R85). -/
structure FrameBytes where
  n0 : Byte
  n1 : Byte
  n2 : Byte
  deriving DecidableEq, Repr

end Sys2Proof
end

