-- ==== Sys2Proof/Config.lean ====
section
/-! DEFINITION. Config.lean: the values the spec leaves open, as constants with no body. Nothing in
Lean can evaluate one, so a statement that mentions one holds whatever its value is. -/

namespace Sys2Proof.Config

/-- The 55 register bits at power-up, before the first reset edge: any value (R188, U1), in the order
of the table of R23. Assumption log 4. -/
opaque powerUpBits : BitVec 55

/-- The value of port `rst` at an edge whose inputs are not listed in the state, by edge number.
Assumption log 2. DESIGN CHOICE (safe): nothing constrains it. -/
opaque freeRst : Nat → Bool

/-- As `freeRst`, for port `in_valid`. -/
opaque freeInValid : Nat → Bool

/-- As `freeRst`, for port `in_len`. -/
opaque freeInLen : Nat → RowLen

/-- As `freeRst`, for port `in_row`. -/
opaque freeInRow : Nat → Row

/-- As `freeRst`, for port `batch_start`. -/
opaque freeBatchStart : Nat → Bool

end Sys2Proof.Config
end

