-- ==== Sys2Proof/Syntax.lean ====
section
/-! DEFINITION. Syntax.lean: the instructions of RCFD-CORE, one constructor for each of the 16 rows of
spec/opcode_table.json (30_encoding.md R68, R69). -/

namespace Sys2Proof

/-- A frame, by its command code. Its operands are the decoded channel `ch` (the complement of the
wire field `h`, R65), the value `v` (R66) and the received checksum nibble `k` (R67). The four padding
bits are don't-care in every encoding and are no operand (R71). -/
inductive Instr where
  /-- Command code 0 (R125). -/
  | invalid0 (ch : Nibble) (v : Byte) (k : Nibble)
  /-- Command code 1, FAN_STOP (R120). -/
  | fanStop (ch : Nibble) (v : Byte) (k : Nibble)
  /-- Command code 2, FAN_SPEED (R121). -/
  | fanSpeed (ch : Nibble) (v : Byte) (k : Nibble)
  /-- Command code 3 (R125). -/
  | invalid3 (ch : Nibble) (v : Byte) (k : Nibble)
  /-- Command code 4, LIGHT_LEVEL (R122). -/
  | lightLevel (ch : Nibble) (v : Byte) (k : Nibble)
  /-- Command code 5, LIGHT_DELAY (R123). -/
  | lightDelay (ch : Nibble) (v : Byte) (k : Nibble)
  /-- Command code 6, FAN_DIR (R124). -/
  | fanDir (ch : Nibble) (v : Byte) (k : Nibble)
  /-- Command code 7 (R125). -/
  | invalid7 (ch : Nibble) (v : Byte) (k : Nibble)
  /-- Command code 8 (R125). -/
  | invalid8 (ch : Nibble) (v : Byte) (k : Nibble)
  /-- Command code 9 (R125). -/
  | invalid9 (ch : Nibble) (v : Byte) (k : Nibble)
  /-- Command code 10 (R125). -/
  | invalid10 (ch : Nibble) (v : Byte) (k : Nibble)
  /-- Command code 11 (R125). -/
  | invalid11 (ch : Nibble) (v : Byte) (k : Nibble)
  /-- Command code 12 (R125). -/
  | invalid12 (ch : Nibble) (v : Byte) (k : Nibble)
  /-- Command code 13 (R125). -/
  | invalid13 (ch : Nibble) (v : Byte) (k : Nibble)
  /-- Command code 14 (R125). -/
  | invalid14 (ch : Nibble) (v : Byte) (k : Nibble)
  /-- Command code 15 (R125). -/
  | invalid15 (ch : Nibble) (v : Byte) (k : Nibble)
  deriving DecidableEq, Repr

end Sys2Proof
end

