-- ==== Sys2Proof/Decode.lean ====
section
/-! DEFINITION. Decode.lean: from the 24 bits of `in_row` to an instruction and back. The bit-order
normalizer (41_normalizer.md R85), the field extractor (43_field_extract.md R105 to R107), the opcode
table (30_encoding.md R68 to R72), the decoder, and after it the encoder (R74). -/

namespace Sys2Proof

/-! ### Bit fields -/

/-- The high nibble of a byte, bits 7:4 (R14, R46). -/
def hiNibble (b : Byte) : Nibble := b.extractLsb' 4 4

/-- The low nibble of a byte, bits 3:0 (R14, R46). -/
def loNibble (b : Byte) : Nibble := b.extractLsb' 0 4

/-- `{hi, lo}`, the byte of two nibbles (R10). -/
def joinNibbles (hi lo : Nibble) : Byte := hi ++ lo

/-- `{p0, p1, p2}`, the port value of three packed bytes (R10, R85). -/
def joinBytes (p0 p1 p2 : Byte) : Row := p0 ++ p1 ++ p2

/-- `rev8(b)[i] = b[7-i]` (R11, R85). -/
def rev8 (b : Byte) : Byte := BitVec.ofFnLE fun i : Fin 8 => b.getLsbD (7 - i)

/-- `rev4(n)[i] = n[3-i]` (R90). -/
def rev4 (n : Nibble) : Nibble := BitVec.ofFnLE fun i : Fin 4 => n.getLsbD (3 - i)

/-- Packed byte P0, `in_row[23:16]` (R85). -/
def packed0 (row : Row) : Byte := row.extractLsb' 16 8

/-- Packed byte P1, `in_row[15:8]` (R85). -/
def packed1 (row : Row) : Byte := row.extractLsb' 8 8

/-- Packed byte P2, `in_row[7:0]` (R85). -/
def packed2 (row : Row) : Byte := row.extractLsb' 0 8

/-- Transmitted bit `t_i`, which stands at `in_row[23-i]` (R13, R31); used for `i < 24` only. -/
def transmittedBit (row : Row) (i : Nat) : Bool := row.getLsbD (23 - i)

/-! ### The normalizer and the field extractor -/

/-- NORMALIZE (R85): reflect each packed byte, the padding slots of P2 forced to 0 first (R88). -/
def normalizeRow (row : Row) : FrameBytes where
  n0 := rev8 (packed0 row)
  n1 := rev8 (packed1 row)
  n2 := rev8 (packed2 row &&& 0xF0#8)

/-- EXTRACT_COMMAND (R105): `N0[7:4]`. -/
def commandOf (n0 : Byte) : Nibble := hiNibble n0

/-- EXTRACT_CHANNEL (R106): `(~N0)[3:0]`. -/
def channelOf (n0 : Byte) : Nibble := loNibble (~~~n0)

/-- EXTRACT_VALUE (R107): `N1`. -/
def valueOf (n1 : Byte) : Byte := n1

/-- The received checksum nibble `N2[3:0]` (R67). -/
def csumRxOf (n2 : Byte) : Nibble := loNibble n2

/-! ### The opcode table -/

/-- One row of spec/opcode_table.json: the mnemonic, the command code, and the match and mask over
`in_row[23:0]` (R70, R72). -/
structure OpcodeRow where
  mnemonic : String
  code : Nibble
  bits : Row
  mask : Row
  valid : Bool
  deriving DecidableEq, Repr

/-- spec/opcode_table.json, row by row in the table's order (R68, R69, R72). -/
def opcodeTable : List OpcodeRow :=
  [ ⟨"INVALID", 0, 0x000000, 0x0F0000, false⟩,
    ⟨"FAN_STOP", 1, 0x080000, 0x0F0000, true⟩,
    ⟨"FAN_SPEED", 2, 0x040000, 0x0F0000, true⟩,
    ⟨"INVALID", 3, 0x0C0000, 0x0F0000, false⟩,
    ⟨"LIGHT_LEVEL", 4, 0x020000, 0x0F0000, true⟩,
    ⟨"LIGHT_DELAY", 5, 0x0A0000, 0x0F0000, true⟩,
    ⟨"FAN_DIR", 6, 0x060000, 0x0F0000, true⟩,
    ⟨"INVALID", 7, 0x0E0000, 0x0F0000, false⟩ ] ++
  [ ⟨"INVALID", 8, 0x010000, 0x0F0000, false⟩,
    ⟨"INVALID", 9, 0x090000, 0x0F0000, false⟩,
    ⟨"INVALID", 10, 0x050000, 0x0F0000, false⟩,
    ⟨"INVALID", 11, 0x0D0000, 0x0F0000, false⟩,
    ⟨"INVALID", 12, 0x030000, 0x0F0000, false⟩,
    ⟨"INVALID", 13, 0x0B0000, 0x0F0000, false⟩,
    ⟨"INVALID", 14, 0x070000, 0x0F0000, false⟩,
    ⟨"INVALID", 15, 0x0F0000, 0x0F0000, false⟩ ]

/-- The row's match/mask pattern applies to `row` (R70). -/
def OpcodeRow.hits (r : OpcodeRow) (row : Row) : Bool := row &&& r.mask == r.bits

/-! ### The instruction's fields -/

/-- The command code of an instruction (R68, R69). -/
def Instr.code : Instr → Nibble
  | .invalid0 _ _ _ => 0
  | .fanStop _ _ _ => 1
  | .fanSpeed _ _ _ => 2
  | .invalid3 _ _ _ => 3
  | .lightLevel _ _ _ => 4
  | .lightDelay _ _ _ => 5
  | .fanDir _ _ _ => 6
  | .invalid7 _ _ _ => 7
  | .invalid8 _ _ _ => 8
  | .invalid9 _ _ _ => 9
  | .invalid10 _ _ _ => 10
  | .invalid11 _ _ _ => 11
  | .invalid12 _ _ _ => 12
  | .invalid13 _ _ _ => 13
  | .invalid14 _ _ _ => 14
  | .invalid15 _ _ _ => 15

/-- The channel operand (R65). -/
def Instr.channel : Instr → Nibble
  | .invalid0 ch _ _ => ch
  | .fanStop ch _ _ => ch
  | .fanSpeed ch _ _ => ch
  | .invalid3 ch _ _ => ch
  | .lightLevel ch _ _ => ch
  | .lightDelay ch _ _ => ch
  | .fanDir ch _ _ => ch
  | .invalid7 ch _ _ => ch
  | .invalid8 ch _ _ => ch
  | .invalid9 ch _ _ => ch
  | .invalid10 ch _ _ => ch
  | .invalid11 ch _ _ => ch
  | .invalid12 ch _ _ => ch
  | .invalid13 ch _ _ => ch
  | .invalid14 ch _ _ => ch
  | .invalid15 ch _ _ => ch

/-- The value operand (R66). -/
def Instr.value : Instr → Byte
  | .invalid0 _ v _ => v
  | .fanStop _ v _ => v
  | .fanSpeed _ v _ => v
  | .invalid3 _ v _ => v
  | .lightLevel _ v _ => v
  | .lightDelay _ v _ => v
  | .fanDir _ v _ => v
  | .invalid7 _ v _ => v
  | .invalid8 _ v _ => v
  | .invalid9 _ v _ => v
  | .invalid10 _ v _ => v
  | .invalid11 _ v _ => v
  | .invalid12 _ v _ => v
  | .invalid13 _ v _ => v
  | .invalid14 _ v _ => v
  | .invalid15 _ v _ => v

/-- The received checksum operand (R67). -/
def Instr.csum : Instr → Nibble
  | .invalid0 _ _ k => k
  | .fanStop _ _ k => k
  | .fanSpeed _ _ k => k
  | .invalid3 _ _ k => k
  | .lightLevel _ _ k => k
  | .lightDelay _ _ k => k
  | .fanDir _ _ k => k
  | .invalid7 _ _ k => k
  | .invalid8 _ _ k => k
  | .invalid9 _ _ k => k
  | .invalid10 _ _ k => k
  | .invalid11 _ _ k => k
  | .invalid12 _ _ k => k
  | .invalid13 _ _ k => k
  | .invalid14 _ _ k => k
  | .invalid15 _ _ k => k

/-- The instruction with a given command code (R68, R69). Every 4-bit code has its constructor; the
last arm stands for 15 alone. -/
def Instr.ofCode (code : Nibble) (ch : Nibble) (v : Byte) (k : Nibble) : Instr :=
  match code.toNat with
  | 0 => .invalid0 ch v k
  | 1 => .fanStop ch v k
  | 2 => .fanSpeed ch v k
  | 3 => .invalid3 ch v k
  | 4 => .lightLevel ch v k
  | 5 => .lightDelay ch v k
  | 6 => .fanDir ch v k
  | 7 => .invalid7 ch v k
  | 8 => .invalid8 ch v k
  | 9 => .invalid9 ch v k
  | 10 => .invalid10 ch v k
  | 11 => .invalid11 ch v k
  | 12 => .invalid12 ch v k
  | 13 => .invalid13 ch v k
  | 14 => .invalid14 ch v k
  | _ => .invalid15 ch v k

/-- The mnemonic of spec/opcode_table.json. -/
def Instr.mnemonic : Instr → String
  | .invalid0 _ _ _ => "INVALID"
  | .fanStop _ _ _ => "FAN_STOP"
  | .fanSpeed _ _ _ => "FAN_SPEED"
  | .invalid3 _ _ _ => "INVALID"
  | .lightLevel _ _ _ => "LIGHT_LEVEL"
  | .lightDelay _ _ _ => "LIGHT_DELAY"
  | .fanDir _ _ _ => "FAN_DIR"
  | .invalid7 _ _ _ => "INVALID"
  | .invalid8 _ _ _ => "INVALID"
  | .invalid9 _ _ _ => "INVALID"
  | .invalid10 _ _ _ => "INVALID"
  | .invalid11 _ _ _ => "INVALID"
  | .invalid12 _ _ _ => "INVALID"
  | .invalid13 _ _ _ => "INVALID"
  | .invalid14 _ _ _ => "INVALID"
  | .invalid15 _ _ _ => "INVALID"

/-! ### The decoder -/

/-- The decoder: normalize the row, extract the four fields, take the constructor of the command code.
It is total: every code has a row, and an invalid code is an instruction of its own (R69). -/
def decode (row : Row) : Instr :=
  let fb := normalizeRow row
  .ofCode (commandOf fb.n0) (channelOf fb.n0) (valueOf fb.n1) (csumRxOf fb.n2)

/-- Why a list of bytes is no row: the port takes exactly three packed bytes (R31, R85). -/
inductive DecodeError where
  | wrongByteCount (found : Nat)
  deriving DecidableEq, Repr

/-- The decoder on packed bytes P0, P1, P2 in transmission order (R45, R85). Any other number of bytes
is rejected by name. -/
def decodeBytes : List Byte → Except DecodeError Instr
  | [p0, p1, p2] => .ok (decode (joinBytes p0 p1 p2))
  | bytes => .error (.wrongByteCount bytes.length)

/-- The table numbers `in_row[23:0]` as it stands (R72), so the number is the port's value. A number
that does not fit the port is no frame. -/
def decodeTableWord (nbits w : Nat) : Option Instr :=
  let bits := w % 2 ^ nbits
  if bits < 2 ^ 24 then some (decode (BitVec.ofNat 24 bits)) else none

/-! ### The encoder -/

/-- Frame Bytes from fields (R63, R74): `N0 = {cmd, (~ch)[3:0]}`, `N1 = v`, `N2 = {4'b0000, k}`. -/
def frameBytes (code ch : Nibble) (v : Byte) (k : Nibble) : FrameBytes where
  n0 := joinNibbles code (~~~ch)
  n1 := v
  n2 := joinNibbles 0 k

/-- `enc(cmd, ch, v, k)` of R74: the three Frame Bytes reflected back, padding 0. -/
def enc (code ch : Nibble) (v : Byte) (k : Nibble) : Row :=
  let fb := frameBytes code ch v k
  joinBytes (rev8 fb.n0) (rev8 fb.n1) (rev8 fb.n2)

/-- The 24 bits of an instruction on the input port (R62, R74). -/
def encode (i : Instr) : Row := enc i.code i.channel i.value i.csum

end Sys2Proof
end

