-- ==== Sys2Proof/Machine/State.lean ====
section
/-! DEFINITION. State.lean: the state of RCFD-CORE (10_state.md), its outcomes, and the state after
reset. -/

namespace Sys2Proof.Machine

/-- The input ports as they stand at one rising edge of `clk` (R31). Every bit is 0 or 1 (D25). -/
structure Ports where
  /-- `rst`: synchronous reset, active high. -/
  rst : Bool
  /-- `in_valid`: a row is presented in this cycle. -/
  inValid : Bool
  /-- `in_len`: the row's bit count. -/
  inLen : RowLen
  /-- `in_row`: the first 24 bit slots of the row. -/
  inRow : Row
  /-- `batch_start`: the row presented in this cycle, if any, is the first of a new batch. -/
  batchStart : Bool
  deriving DecidableEq, Repr

/-- The status of a row (R165). -/
inductive Status where
  | ok
  | errLen
  | errCsum
  | errCmd
  deriving DecidableEq, Repr

/-- The tuple `decode(in_len, in_row)` of R145: what one row gives the eleven data registers. -/
structure RowResult where
  status : Status
  nb0 : Byte
  nb1 : Byte
  nb2 : Byte
  csumCalc : Nibble
  command : Nibble
  channel : Nibble
  value : Byte
  category : Code3
  render : Code3
  vflag : Bool
  deriving DecidableEq, Repr

/-- RCFD-CORE has no fault and no hang: "No condition stops RCFD-CORE" (R172, 93_implementation_defined.md).
So there is no fault reason. -/
inductive Fault where
  deriving DecidableEq, Repr

/-- What the model refuses. No step of the machine refuses; the observation of a record does, where the
spec says a model must. -/
inductive Refusal where
  /-- An instruction whose meaning is not written yet; raised by `exec` alone. No arm raises it now.
  Safe: the model stops. -/
  | notModelled (mnemonic : String)
  /-- A record with a category code that no emitted record has (0, 5, 6, 7; R136, U4, U5); raised by
  `recordView`. Safe: the model gives no record. -/
  | categoryNeverInRecord (category : Code3)
  /-- A record with a render code that no emitted record has (0, 6, 7; R137, U5); raised by
  `recordView`. Safe: the model gives no record. -/
  | renderNeverInRecord (render : Code3)
  deriving DecidableEq, Repr

/-- The state: the thirteen registers of R23, and the model's own account of the world outside
(assumption log 1 and 2). The command ROM is constant (R42) and stands in Ops.lean (log 5). -/
structure State where
  /-- `r_valid` (R24). -/
  rValid : Bool
  /-- `r_status` (R25). -/
  rStatus : BitVec 2
  /-- `r_nb0` (R26). -/
  rNb0 : Byte
  /-- `r_nb1` (R26). -/
  rNb1 : Byte
  /-- `r_nb2` (R26). -/
  rNb2 : Byte
  /-- `r_csum_calc` (R27). -/
  rCsumCalc : Nibble
  /-- `r_command` (R28). -/
  rCommand : Nibble
  /-- `r_channel` (R28). -/
  rChannel : Nibble
  /-- `r_value` (R28). -/
  rValue : Byte
  /-- `r_category` (R29). -/
  rCategory : Code3
  /-- `r_render` (R29). -/
  rRender : Code3
  /-- `r_vflag` (R29). -/
  rVflag : Bool
  /-- `r_batch_ok` (R30). -/
  rBatchOk : Bool
  /-- The model's own: the port values at the coming edges, the next edge first. DESIGN CHOICE
  (assumption log 1). -/
  inputs : List Ports
  /-- The model's own: how many edges have been taken; it numbers the free port values that stand in
  once `inputs` is used up. DESIGN CHOICE (assumption log 2). -/
  edge : Nat
  deriving DecidableEq, Repr

/-- The state right after a reset edge (R36, R185): every register 0. No input is listed and no edge
counted yet (assumption log 2 and 3). -/
def State.reset : State where
  rValid := false
  rStatus := 0
  rNb0 := 0
  rNb1 := 0
  rNb2 := 0
  rCsumCalc := 0
  rCommand := 0
  rChannel := 0
  rValue := 0
  rCategory := 0
  rRender := 0
  rVflag := false
  rBatchOk := false
  inputs := []
  edge := 0

end Sys2Proof.Machine
end

