-- ==== Sys2Proof/Machine/Operands.lean ====
section
/-! DEFINITION. Operands.lean: what a row takes from the input ports (10_state.md R31), the Frame Source's
input contract (45_row_pipeline.md R146), and the passing of an edge's inputs. -/

namespace Sys2Proof.Machine

/-- The port values at an edge whose inputs are not listed: free, one draw an edge (assumption log 2). -/
def freePorts (edge : Nat) : Ports where
  rst := Config.freeRst edge
  inValid := Config.freeInValid edge
  inLen := Config.freeInLen edge
  inRow := Config.freeInRow edge
  batchStart := Config.freeBatchStart edge

/-- The port values that the next rising edge samples (R31, R194). -/
def portsNow (s : State) : Ports :=
  match s.inputs with
  | p :: _ => p
  | [] => freePorts s.edge

/-- The edge is over: the next edge samples the next listed inputs. -/
def nextCycle (s : State) : State := { s with inputs := s.inputs.tail, edge := s.edge + 1 }

/-- The ports of an edge that presents a row (`ROW len, row`, R73). -/
def rowPorts (len : RowLen) (row : Row) (batchStart : Bool) : Ports where
  rst := false
  inValid := true
  inLen := len
  inRow := row
  batchStart := batchStart

/-- `s` with the port values of its next edge replaced by `p`. -/
def presentNext (p : Ports) (s : State) : State := { s with inputs := p :: s.inputs.tail }

/-- FRAME_LEN (R8). -/
def frameLen : RowLen := 20

/-- The row of bits `t_0, t_1, …` on the port: `in_row[23-i] = t_i` for `i < min(in_len, 24)`; the
other slots hold any value, here that of `filler` (R146, U2). -/
def packRow (bits : List Bool) (filler : Row) : Row :=
  BitVec.ofFnLE fun j : Fin 24 => bits.getD (23 - j) (filler.getLsbD j)

/-- The bit count on the port, saturated at 65535 (R31, R146). -/
def packLen (bits : List Bool) : RowLen := BitVec.ofNat 16 (min bits.length 65535)

/-- The Frame Source presents a bit row of any length (R146). -/
def frameSourcePorts (bits : List Bool) (filler : Row) (batchStart : Bool) : Ports :=
  rowPorts (packLen bits) (packRow bits filler) batchStart

end Sys2Proof.Machine
end

