-- ==== Sys2Proof/Machine/Flags.lean ====
section
/-! DEFINITION. Flags.lean: the one-bit checks, the status of a row, and the batch flag (10_state.md R37).
RCFD-CORE has no flags register. -/

namespace Sys2Proof.Machine

/-- LENGTH_GATE (R80): `in_len == 20`. -/
def lenOk (len : RowLen) : Bool := len == frameLen

/-- The sum of the four nibbles of N0 and N1, a natural number 0..60 (R95). -/
def nibbleSum (n0 n1 : Byte) : Nat :=
  (hiNibble n0).toNat + (loNibble n0).toNat + (hiNibble n1).toNat + (loNibble n1).toNat

/-- CSUM_CALC (R95): the sum modulo 16. The carry is thrown away. -/
def csumCalc (n0 n1 : Byte) : Nibble := BitVec.ofNat 4 (nibbleSum n0 n1)

/-- CSUM_CHECK (R96). -/
def csumOk (n0 n1 n2 : Byte) : Bool := csumCalc n0 n1 == csumRxOf n2

/-- DELAY_OFF_VALUE (R8, R131). -/
def delayOffValue : Byte := 0x00

/-- DIR_CW_VALUE (R8, R131). -/
def dirCwValue : Byte := 0x07

/-- VCLASS (R130): both comparisons are exact matches over all 8 bits (R131). -/
def vclass (render : Code3) (value : Byte) : Bool :=
  if render = 4 then value != delayOffValue
  else if render = 5 then value == dirCwValue
  else false

/-- The 2-bit status codes (R165). -/
def Status.code : Status → BitVec 2
  | .ok => 0
  | .errLen => 1
  | .errCsum => 2
  | .errCmd => 3

/-- STATUS_SELECT (R169), the one place where a row is rejected: the earliest failing stage gives the
reason. This is the whole of taking an exception on this hardware: a rejection saves no state, switches
no mode and transfers no control (R170), and there is no return from one (R171). -/
def statusOf (lenOk csumOk cmdOk : Bool) : Status :=
  if !lenOk then .errLen
  else if !csumOk then .errCsum
  else if !cmdOk then .errCmd
  else .ok

/-- The batch-success update (R150), rst = 0. -/
def batchNext (b batchStart inValid : Bool) (status : Status) : Bool :=
  let hit := inValid && (status == .ok)
  if batchStart then hit else b || hit

/-- The record strobe `out_record = r_valid & (r_status == 0)` (R33). -/
def outRecord (s : State) : Bool := s.rValid && (s.rStatus == 0)

end Sys2Proof.Machine
end

