-- ==== Sys2Proof/Machine/Ops.lean ====
section
/-! DEFINITION. Ops.lean: the command ROM (20_memory.md R40 to R43, 44_command_rom.md R115 to R117), the
datapath of one row (45_row_pipeline.md R145), and the three kinds of edge (R148). -/

namespace Sys2Proof.Machine

/-! ### The command ROM -/

/-- The contents of the ROM, every address (R116): `valid` in bit 6, `category` in 5:3, `render` in 2:0.
Constant and read-only (R42), so it is no field of State (assumption log 5). -/
def romWords : Vector RomWord 16 :=
  #v[0x00, 0x49, 0x4A, 0x00, 0x53, 0x5C, 0x65, 0x00,
     0x00, 0x00, 0x00, 0x00, 0x00, 0x00, 0x00, 0x00]

/-- `MemRead(a, 1) = ROM[a]` (R41): combinational, no side effect, every 4-bit address holds a word
(R43). -/
def memRead (a : Nibble) : RomWord := romWords[a.toNat]'a.isLt

/-- `w[6]` (R115, R117). -/
def romValid (w : RomWord) : Bool := w.getLsbD 6

/-- `w[5:3]` (R115, R117). -/
def romCategory (w : RomWord) : Code3 := w.extractLsb' 3 3

/-- `w[2:0]` (R115, R117). -/
def romRender (w : RomWord) : Code3 := w.extractLsb' 0 3

/-! ### One row -/

/-- DECODE (R145) from the Frame Bytes on: checksum, fields, ROM lookup, classifier, status. Every stage
computes for every row, whatever the status (R82, R101, R108). -/
def rowResult (len : RowLen) (fb : FrameBytes) : RowResult :=
  let command := commandOf fb.n0
  let value := valueOf fb.n1
  let w := memRead command
  { status := statusOf (lenOk len) (csumOk fb.n0 fb.n1 fb.n2) (romValid w)
    nb0 := fb.n0
    nb1 := fb.n1
    nb2 := fb.n2
    csumCalc := csumCalc fb.n0 fb.n1
    command := command
    channel := channelOf fb.n0
    value := value
    category := romCategory w
    render := romRender w
    vflag := vclass (romRender w) value }

/-- The whole combinational datapath `decode(in_len, in_row)` of R145. -/
def datapath (len : RowLen) (row : Row) : RowResult := rowResult len (normalizeRow row)

/-- The eleven data registers take the tuple, all together (R148). -/
def loadResult (d : RowResult) (s : State) : State :=
  { s with
    rStatus := d.status.code
    rNb0 := d.nb0
    rNb1 := d.nb1
    rNb2 := d.nb2
    rCsumCalc := d.csumCalc
    rCommand := d.command
    rChannel := d.channel
    rValue := d.value
    rCategory := d.category
    rRender := d.render
    rVflag := d.vflag }

/-! ### The edges -/

/-- An edge with `rst = 0` and `in_valid = 1` at which the Frame Bytes `fb` stand on the port (R148).
`in_len` and `batch_start` are those of the same edge. -/
def rowEdge (fb : FrameBytes) (s : State) : State :=
  let p := portsNow s
  let d := rowResult p.inLen fb
  { loadResult d s with
    rValid := true
    rBatchOk := batchNext s.rBatchOk p.batchStart true d.status }

/-- An edge with `rst = 0` and `in_valid = 0`: the data registers keep their values (R148, R155). With no
row presented the status does not matter to the batch flag; `.ok` stands for any. -/
def idleEdge (s : State) : State :=
  { s with
    rValid := false
    rBatchOk := batchNext s.rBatchOk (portsNow s).batchStart false .ok }

/-- An edge with `rst = 1`: every register of R23 takes its reset value, whatever the other inputs are
(R185, R186). The ROM is not affected. -/
def resetEdge (s : State) : State :=
  { s with
    rValid := false
    rStatus := 0
    rNb0 := 0
    rNb1 := 0
    rNb2 := 0
    rCsumCalc := 0
    rCommand := 0
    rChannel := 0
    rValue := 0
    rCategory := 0
    rRender := 0
    rVflag := false
    rBatchOk := false }

/-- The state at power-up, before the first reset edge: 55 free register bits (R188, U1; assumption
log 4), in the order of R23. -/
def State.powerUp : State where
  rValid := Config.powerUpBits.getLsbD 54
  rStatus := Config.powerUpBits.extractLsb' 52 2
  rNb0 := Config.powerUpBits.extractLsb' 44 8
  rNb1 := Config.powerUpBits.extractLsb' 36 8
  rNb2 := Config.powerUpBits.extractLsb' 28 8
  rCsumCalc := Config.powerUpBits.extractLsb' 24 4
  rCommand := Config.powerUpBits.extractLsb' 20 4
  rChannel := Config.powerUpBits.extractLsb' 16 4
  rValue := Config.powerUpBits.extractLsb' 8 8
  rCategory := Config.powerUpBits.extractLsb' 5 3
  rRender := Config.powerUpBits.extractLsb' 2 3
  rVflag := Config.powerUpBits.getLsbD 1
  rBatchOk := Config.powerUpBits.getLsbD 0
  inputs := []
  edge := 0

end Sys2Proof.Machine
end

