-- ==== Sys2Proof/Machine/Commands.lean ====
section
/-! DEFINITION. Commands.lean: the five defined commands (44_command_rom.md R120 to R124). The category,
the render mode and the value bit come from the ROM and the classifier, as in the hardware; the rules'
own values are what the statements of this package say comes out. -/

namespace Sys2Proof.Machine

/-- FAN_STOP, command code 1 (R120). -/
def execFanStop (ch : Nibble) (v : Byte) (k : Nibble) (s : State) : Host.Outcome State Fault Refusal :=
  .next (rowEdge (frameBytes 1 ch v k) s)

/-- FAN_SPEED, command code 2 (R121). -/
def execFanSpeed (ch : Nibble) (v : Byte) (k : Nibble) (s : State) : Host.Outcome State Fault Refusal :=
  .next (rowEdge (frameBytes 2 ch v k) s)

/-- LIGHT_LEVEL, command code 4 (R122). -/
def execLightLevel (ch : Nibble) (v : Byte) (k : Nibble) (s : State) : Host.Outcome State Fault Refusal :=
  .next (rowEdge (frameBytes 4 ch v k) s)

/-- LIGHT_DELAY, command code 5 (R123). -/
def execLightDelay (ch : Nibble) (v : Byte) (k : Nibble) (s : State) : Host.Outcome State Fault Refusal :=
  .next (rowEdge (frameBytes 5 ch v k) s)

/-- FAN_DIR, command code 6 (R124). -/
def execFanDir (ch : Nibble) (v : Byte) (k : Nibble) (s : State) : Host.Outcome State Fault Refusal :=
  .next (rowEdge (frameBytes 6 ch v k) s)

end Sys2Proof.Machine
end

