-- ==== Sys2Proof/Machine/Invalid.lean ====
section
/-! DEFINITION. Invalid.lean: the eleven invalid command codes 0, 3, 7 to 15 (44_command_rom.md R125).
Each is taken like any frame; its ROM word is all zero, so with a good length and checksum its status is
ERR_CMD and no record exists. -/

namespace Sys2Proof.Machine

/-- INVALID, command code 0 (R125). -/
def execInvalid0 (ch : Nibble) (v : Byte) (k : Nibble) (s : State) : Host.Outcome State Fault Refusal :=
  .next (rowEdge (frameBytes 0 ch v k) s)

/-- INVALID, command code 3 (R125). -/
def execInvalid3 (ch : Nibble) (v : Byte) (k : Nibble) (s : State) : Host.Outcome State Fault Refusal :=
  .next (rowEdge (frameBytes 3 ch v k) s)

/-- INVALID, command code 7 (R125). -/
def execInvalid7 (ch : Nibble) (v : Byte) (k : Nibble) (s : State) : Host.Outcome State Fault Refusal :=
  .next (rowEdge (frameBytes 7 ch v k) s)

/-- INVALID, command code 8 (R125). -/
def execInvalid8 (ch : Nibble) (v : Byte) (k : Nibble) (s : State) : Host.Outcome State Fault Refusal :=
  .next (rowEdge (frameBytes 8 ch v k) s)

/-- INVALID, command code 9 (R125). -/
def execInvalid9 (ch : Nibble) (v : Byte) (k : Nibble) (s : State) : Host.Outcome State Fault Refusal :=
  .next (rowEdge (frameBytes 9 ch v k) s)

/-- INVALID, command code 10 (R125). -/
def execInvalid10 (ch : Nibble) (v : Byte) (k : Nibble) (s : State) : Host.Outcome State Fault Refusal :=
  .next (rowEdge (frameBytes 10 ch v k) s)

/-- INVALID, command code 11 (R125). -/
def execInvalid11 (ch : Nibble) (v : Byte) (k : Nibble) (s : State) : Host.Outcome State Fault Refusal :=
  .next (rowEdge (frameBytes 11 ch v k) s)

/-- INVALID, command code 12 (R125). -/
def execInvalid12 (ch : Nibble) (v : Byte) (k : Nibble) (s : State) : Host.Outcome State Fault Refusal :=
  .next (rowEdge (frameBytes 12 ch v k) s)

/-- INVALID, command code 13 (R125). -/
def execInvalid13 (ch : Nibble) (v : Byte) (k : Nibble) (s : State) : Host.Outcome State Fault Refusal :=
  .next (rowEdge (frameBytes 13 ch v k) s)

/-- INVALID, command code 14 (R125). -/
def execInvalid14 (ch : Nibble) (v : Byte) (k : Nibble) (s : State) : Host.Outcome State Fault Refusal :=
  .next (rowEdge (frameBytes 14 ch v k) s)

/-- INVALID, command code 15 (R125). -/
def execInvalid15 (ch : Nibble) (v : Byte) (k : Nibble) (s : State) : Host.Outcome State Fault Refusal :=
  .next (rowEdge (frameBytes 15 ch v k) s)

end Sys2Proof.Machine
end

