-- ==== Sys2Proof/Machine/Dispatch.lean ====
section
/-! DEFINITION. Dispatch.lean: one arm per row of spec/opcode_table.json. -/

namespace Sys2Proof.Machine

def exec (i : Instr) (s : State) : Host.Outcome State Fault Refusal :=
  match i with
  | .invalid0 ch v k => Sys2Proof.Machine.execInvalid0 ch v k s
  | .fanStop ch v k => Sys2Proof.Machine.execFanStop ch v k s
  | .fanSpeed ch v k => Sys2Proof.Machine.execFanSpeed ch v k s
  | .invalid3 ch v k => Sys2Proof.Machine.execInvalid3 ch v k s
  | .lightLevel ch v k => Sys2Proof.Machine.execLightLevel ch v k s
  | .lightDelay ch v k => Sys2Proof.Machine.execLightDelay ch v k s
  | .fanDir ch v k => Sys2Proof.Machine.execFanDir ch v k s
  | .invalid7 ch v k => Sys2Proof.Machine.execInvalid7 ch v k s
  | .invalid8 ch v k => Sys2Proof.Machine.execInvalid8 ch v k s
  | .invalid9 ch v k => Sys2Proof.Machine.execInvalid9 ch v k s
  | .invalid10 ch v k => Sys2Proof.Machine.execInvalid10 ch v k s
  | .invalid11 ch v k => Sys2Proof.Machine.execInvalid11 ch v k s
  | .invalid12 ch v k => Sys2Proof.Machine.execInvalid12 ch v k s
  | .invalid13 ch v k => Sys2Proof.Machine.execInvalid13 ch v k s
  | .invalid14 ch v k => Sys2Proof.Machine.execInvalid14 ch v k s
  | .invalid15 ch v k => Sys2Proof.Machine.execInvalid15 ch v k s

end Sys2Proof.Machine
end

