-- ==== Sys2Proof/Machine/Edge.lean ====
section
/-! DEFINITION. Edge.lean: STEP, the update at one rising edge of `clk` (45_row_pipeline.md R148). -/

namespace Sys2Proof.Machine

/-- The outcome with its next state, if any, changed by `f`. -/
def mapNext (f : State → State) : Host.Outcome State Fault Refusal → Host.Outcome State Fault Refusal
  | .next t => .next (f t)
  | .fault r => .fault r
  | .refused r => .refused r

/-- One rising edge (R148): reset outranks every other input (R186); a presented row is decoded and
executed; without a row the edge is idle. Then the inputs of this edge are used up. -/
def clockEdge (s : State) : Host.Outcome State Fault Refusal :=
  let p := portsNow s
  if p.rst then .next (nextCycle (resetEdge s))
  else if p.inValid then mapNext nextCycle (exec (decode p.inRow) s)
  else .next (nextCycle (idleEdge s))

end Sys2Proof.Machine
end

