-- ==== Sys2Proof/Machine/Step.lean ====
section
/-! DEFINITION. Step.lean: one step is one rising edge of `clk`. -/

namespace Sys2Proof.Machine

/-- One step: one rising edge (R148). -/
def step (s : State) : Host.Outcome State Fault Refusal := clockEdge s

/-- `s` with the frame `w` on the input port at its next edge: `ROW 20, w` of R73, `rst` and
`batch_start` 0 (assumption log 3). It replaces what was listed for that edge, and nothing else. -/
def State.withFetchWord (s : State) (nbits w : Nat) : State :=
  presentNext (rowPorts frameLen (BitVec.ofNat 24 (w % 2 ^ nbits)) false) s

end Sys2Proof.Machine
end

