-- ==== Sys2Proof/Laws/Decode.lean ====
section
/-! SUPPORT. Decode.lean: the laws of the bit fields, of reflection (41_normalizer.md R90) and of the
constructor table. -/

namespace Sys2Proof

/-! ### Reflection -/

theorem getElem_rev8 (b : Byte) (i : Nat) (h : i < 8) : (rev8 b)[i] = b.getLsbD (7 - i) := by
  simp [rev8, BitVec.getElem_ofFnLE]

theorem getLsbD_rev8 (b : Byte) (i : Nat) (h : i < 8) : (rev8 b).getLsbD i = b.getLsbD (7 - i) := by
  rw [← getElem_rev8 b i h, BitVec.getLsbD_eq_getElem h]

theorem getElem_rev4 (n : Nibble) (i : Nat) (h : i < 4) : (rev4 n)[i] = n.getLsbD (3 - i) := by
  simp [rev4, BitVec.getElem_ofFnLE]

theorem getLsbD_rev4 (n : Nibble) (i : Nat) (h : i < 4) : (rev4 n).getLsbD i = n.getLsbD (3 - i) := by
  rw [BitVec.getLsbD_eq_getElem h, getElem_rev4]

/-- `rev8(rev8(b)) = b` (R90). -/
@[simp] theorem rev8_rev8 (b : Byte) : rev8 (rev8 b) = b := by
  apply BitVec.eq_of_getElem_eq
  intro i hi
  rw [getElem_rev8 _ _ hi, getLsbD_rev8 _ _ (by omega), BitVec.getLsbD_eq_getElem (by omega)]
  congr 1
  omega

/-- `rev8(~b) = ~rev8(b)` (R90). -/
theorem rev8_not (b : Byte) : rev8 (~~~b) = ~~~rev8 b := by
  apply BitVec.eq_of_getElem_eq
  intro i hi
  have : 7 - i < 8 := by omega
  simp [getElem_rev8 _ _ hi, this]

/-- `rev8(a & b) = rev8(a) & rev8(b)` (R90). -/
theorem rev8_and (a b : Byte) : rev8 (a &&& b) = rev8 a &&& rev8 b := by
  apply BitVec.eq_of_getElem_eq
  intro i hi
  simp [getElem_rev8 _ _ hi]

/-- `rev8(a | b) = rev8(a) | rev8(b)` (R90). -/
theorem rev8_or (a b : Byte) : rev8 (a ||| b) = rev8 a ||| rev8 b := by
  apply BitVec.eq_of_getElem_eq
  intro i hi
  simp [getElem_rev8 _ _ hi]

/-- `rev8(b)[7:4] = rev4(b[3:0])` (R90). -/
theorem hiNibble_rev8 (b : Byte) : hiNibble (rev8 b) = rev4 (loNibble b) := by
  revert b; decide +kernel

/-- `rev8(b)[3:0] = rev4(b[7:4])` (R90). -/
theorem loNibble_rev8 (b : Byte) : loNibble (rev8 b) = rev4 (hiNibble b) := by
  revert b; decide +kernel

/-! ### Nibbles -/

theorem getElem_joinNibbles (a b : Nibble) (i : Nat) (h : i < 8) :
    (joinNibbles a b)[i] = if i < 4 then b.getLsbD i else a.getLsbD (i - 4) := by
  refine (BitVec.getElem_append (x := a) (y := b) h).trans ?_
  split <;> rw [BitVec.getLsbD_eq_getElem]

theorem getLsbD_joinNibbles (a b : Nibble) (i : Nat) (h : i < 8) :
    (joinNibbles a b).getLsbD i = if i < 4 then b.getLsbD i else a.getLsbD (i - 4) := by
  rw [BitVec.getLsbD_eq_getElem h, getElem_joinNibbles]

theorem getElem_hiNibble (b : Byte) (i : Nat) (h : i < 4) : (hiNibble b)[i] = b.getLsbD (4 + i) := by
  simp [hiNibble]

theorem getElem_loNibble (b : Byte) (i : Nat) (h : i < 4) : (loNibble b)[i] = b.getLsbD i := by
  simp [loNibble]

@[simp] theorem hiNibble_joinNibbles (a b : Nibble) : hiNibble (joinNibbles a b) = a := by
  apply BitVec.eq_of_getElem_eq
  intro i hi
  rw [getElem_hiNibble _ _ hi, getLsbD_joinNibbles _ _ _ (by omega), if_neg (by omega),
    ← BitVec.getLsbD_eq_getElem hi]
  congr 1
  omega

@[simp] theorem loNibble_joinNibbles (a b : Nibble) : loNibble (joinNibbles a b) = b := by
  apply BitVec.eq_of_getElem_eq
  intro i hi
  rw [getElem_loNibble _ _ hi, getLsbD_joinNibbles _ _ _ (by omega), if_pos hi,
    BitVec.getLsbD_eq_getElem hi]

@[simp] theorem joinNibbles_nibbles (b : Byte) : joinNibbles (hiNibble b) (loNibble b) = b := by
  apply BitVec.eq_of_getElem_eq
  intro i hi
  rw [getElem_joinNibbles _ _ _ hi]
  split
  · rename_i h
    rw [BitVec.getLsbD_eq_getElem h, getElem_loNibble _ _ h, BitVec.getLsbD_eq_getElem hi]
  · rename_i h
    have h4 : i - 4 < 4 := by omega
    rw [BitVec.getLsbD_eq_getElem h4, getElem_hiNibble _ _ h4, ← BitVec.getLsbD_eq_getElem hi]
    congr 1
    omega

theorem toNat_hiNibble (b : Byte) : (hiNibble b).toNat = b.toNat / 16 := by
  revert b; decide +kernel

theorem toNat_loNibble (b : Byte) : (loNibble b).toNat = b.toNat % 16 := by
  revert b; decide +kernel

theorem loNibble_not (b : Byte) : loNibble (~~~b) = ~~~loNibble b := by
  apply BitVec.eq_of_getElem_eq
  intro i hi
  simp [loNibble, show i < 8 by omega]

/-! ### Packed bytes -/

theorem getElem_joinBytes (p0 p1 p2 : Byte) (i : Nat) (h : i < 24) :
    (joinBytes p0 p1 p2)[i] =
      if i < 8 then p2.getLsbD i else if i < 16 then p1.getLsbD (i - 8) else p0.getLsbD (i - 16) := by
  refine (BitVec.getElem_append (x := p0 ++ p1) (y := p2) h).trans ?_
  split
  · rw [BitVec.getLsbD_eq_getElem]
  · rename_i h8
    refine (BitVec.getElem_append (x := p0) (y := p1) (by omega)).trans ?_
    split <;> rename_i h16
    · rw [if_pos (by omega), BitVec.getLsbD_eq_getElem]
    · rw [if_neg (by omega), ← BitVec.getLsbD_eq_getElem]
      congr 1

theorem getLsbD_joinBytes (p0 p1 p2 : Byte) (i : Nat) (h : i < 24) :
    (joinBytes p0 p1 p2).getLsbD i =
      if i < 8 then p2.getLsbD i else if i < 16 then p1.getLsbD (i - 8) else p0.getLsbD (i - 16) := by
  rw [BitVec.getLsbD_eq_getElem h, getElem_joinBytes]

theorem getElem_packed0 (row : Row) (i : Nat) (h : i < 8) : (packed0 row)[i] = row.getLsbD (16 + i) := by
  simp [packed0]

theorem getElem_packed1 (row : Row) (i : Nat) (h : i < 8) : (packed1 row)[i] = row.getLsbD (8 + i) := by
  simp [packed1]

theorem getElem_packed2 (row : Row) (i : Nat) (h : i < 8) : (packed2 row)[i] = row.getLsbD i := by
  simp [packed2]

@[simp] theorem packed0_joinBytes (p0 p1 p2 : Byte) : packed0 (joinBytes p0 p1 p2) = p0 := by
  apply BitVec.eq_of_getElem_eq
  intro i hi
  rw [getElem_packed0 _ _ hi, getLsbD_joinBytes _ _ _ _ (by omega), if_neg (by omega),
    if_neg (by omega), ← BitVec.getLsbD_eq_getElem hi]
  congr 1
  omega

@[simp] theorem packed1_joinBytes (p0 p1 p2 : Byte) : packed1 (joinBytes p0 p1 p2) = p1 := by
  apply BitVec.eq_of_getElem_eq
  intro i hi
  rw [getElem_packed1 _ _ hi, getLsbD_joinBytes _ _ _ _ (by omega), if_neg (by omega),
    if_pos (by omega), ← BitVec.getLsbD_eq_getElem hi]
  congr 1
  omega

@[simp] theorem packed2_joinBytes (p0 p1 p2 : Byte) : packed2 (joinBytes p0 p1 p2) = p2 := by
  apply BitVec.eq_of_getElem_eq
  intro i hi
  rw [getElem_packed2 _ _ hi, getLsbD_joinBytes _ _ _ _ (by omega), if_pos (by omega),
    BitVec.getLsbD_eq_getElem hi]

@[simp] theorem joinBytes_packed (row : Row) : joinBytes (packed0 row) (packed1 row) (packed2 row) = row := by
  apply BitVec.eq_of_getElem_eq
  intro i hi
  rw [getElem_joinBytes _ _ _ _ hi, ← BitVec.getLsbD_eq_getElem hi]
  split
  · rename_i h
    rw [BitVec.getLsbD_eq_getElem h, getElem_packed2 _ _ h]
  · split
    · have h1 : i - 8 < 8 := by omega
      rw [BitVec.getLsbD_eq_getElem h1, getElem_packed1 _ _ h1]
      congr 1
      omega
    · have h0 : i - 16 < 8 := by omega
      rw [BitVec.getLsbD_eq_getElem h0, getElem_packed0 _ _ h0]
      congr 1
      omega

/-! ### The normalizer and the Frame Bytes -/

/-- Reflecting `enc` back gives its Frame Bytes (R74, R85). -/
theorem normalizeRow_enc (c ch : Nibble) (v : Byte) (k : Nibble) :
    normalizeRow (enc c ch v k) = frameBytes c ch v k := by
  have padding : rev8 (rev8 (joinNibbles 0 k) &&& 0xF0#8) = joinNibbles 0 k := by
    revert k; decide +kernel
  simp only [normalizeRow, enc, frameBytes, packed0_joinBytes, packed1_joinBytes, packed2_joinBytes,
    rev8_rev8, padding]

/-- The complement of the complemented channel is the channel (R109). -/
@[simp] theorem channelOf_joinNibbles (c ch : Nibble) : channelOf (joinNibbles c (~~~ch)) = ch := by
  simp [channelOf, loNibble_not]

/-! ### The constructor table -/

/-- Every code has its constructor, one for one. -/
theorem ofCode_cases (code ch : Nibble) (v : Byte) (k : Nibble) :
    (Instr.ofCode code ch v k).code = code ∧ (Instr.ofCode code ch v k).channel = ch ∧
      (Instr.ofCode code ch v k).value = v ∧ (Instr.ofCode code ch v k).csum = k := by
  have key : ∀ c : Nibble, c = 0 ∨ c = 1 ∨ c = 2 ∨ c = 3 ∨ c = 4 ∨ c = 5 ∨ c = 6 ∨ c = 7 ∨ c = 8 ∨
      c = 9 ∨ c = 10 ∨ c = 11 ∨ c = 12 ∨ c = 13 ∨ c = 14 ∨ c = 15 := by decide
  rcases key code with h | h | h | h | h | h | h | h | h | h | h | h | h | h | h | h <;> subst h <;>
    exact ⟨rfl, rfl, rfl, rfl⟩

@[simp] theorem ofCode_code (code ch : Nibble) (v : Byte) (k : Nibble) :
    (Instr.ofCode code ch v k).code = code := (ofCode_cases code ch v k).1

@[simp] theorem ofCode_channel (code ch : Nibble) (v : Byte) (k : Nibble) :
    (Instr.ofCode code ch v k).channel = ch := (ofCode_cases code ch v k).2.1

@[simp] theorem ofCode_value (code ch : Nibble) (v : Byte) (k : Nibble) :
    (Instr.ofCode code ch v k).value = v := (ofCode_cases code ch v k).2.2.1

@[simp] theorem ofCode_csum (code ch : Nibble) (v : Byte) (k : Nibble) :
    (Instr.ofCode code ch v k).csum = k := (ofCode_cases code ch v k).2.2.2

@[simp] theorem ofCode_fields (i : Instr) : Instr.ofCode i.code i.channel i.value i.csum = i := by
  cases i <;> rfl

/-- The Frame Bytes rebuilt from a decoded row's operands are the normalizer's (R85, R109). -/
theorem frameBytes_decode (row : Row) :
    frameBytes (decode row).code (decode row).channel (decode row).value (decode row).csum =
      normalizeRow row := by
  have padding : ∀ p2 : Byte, joinNibbles 0 (loNibble (rev8 (p2 &&& 0xF0#8))) = rev8 (p2 &&& 0xF0#8) := by
    decide +kernel
  simp only [decode, ofCode_code, ofCode_channel, ofCode_value, ofCode_csum, frameBytes, commandOf,
    channelOf, valueOf, csumRxOf, loNibble_not, normalizeRow, padding, BitVec.not_not, joinNibbles_nibbles]

end Sys2Proof
end

