-- ==== Sys2Proof/Machine/Assembler.lean ====
section
/-! DEFINITION. Assembler.lean: the notation for input sequences (30_encoding.md R73, R74). Each statement is
one clock cycle. -/

namespace Sys2Proof.Machine

/-- A statement of R73 or a pseudo-instruction of R74. `b` is the suffix `.B`, which a row statement may
carry. The inputs that R73 calls "any" are arguments. -/
inductive Statement where
  | row (b : Bool) (len : RowLen) (row : Row)
  | idle (anyLen : RowLen) (anyRow : Row)
  | bstart (anyLen : RowLen) (anyRow : Row)
  | reset (anyValid : Bool) (anyLen : RowLen) (anyRow : Row) (anyStart : Bool)
  | frame (b : Bool) (cmd ch : Nibble) (v : Byte)
  | frameK (b : Bool) (cmd ch : Nibble) (v : Byte) (k : Nibble)
  | fanStop (b : Bool) (ch : Nibble) (v : Byte)
  | fanSpeed (b : Bool) (ch : Nibble) (v : Byte)
  | lightLevel (b : Bool) (ch : Nibble) (v : Byte)
  | lightDelay (b : Bool) (ch : Nibble) (v : Byte)
  | fanDir (b : Bool) (ch : Nibble) (v : Byte)
  deriving DecidableEq, Repr

/-- `csum(cmd, ch, v)` of R74. -/
def frameCsum (cmd ch : Nibble) (v : Byte) : Nibble :=
  csumCalc (frameBytes cmd ch v 0).n0 (frameBytes cmd ch v 0).n1

/-- The row of `FRAME cmd, ch, v` (R74). -/
def frameRow (cmd ch : Nibble) (v : Byte) : Row := enc cmd ch v (frameCsum cmd ch v)

/-- The input ports in the cycle of a statement (R73, R74). -/
def Statement.ports : Statement → Ports
  | .row b len bits => rowPorts len bits b
  | .idle len bits => ⟨false, false, len, bits, false⟩
  | .bstart len bits => ⟨false, false, len, bits, true⟩
  | .reset valid len bits start => ⟨true, valid, len, bits, start⟩
  | .frame b cmd ch v => rowPorts frameLen (frameRow cmd ch v) b
  | .frameK b cmd ch v k => rowPorts frameLen (enc cmd ch v k) b
  | .fanStop b ch v => rowPorts frameLen (frameRow 1 ch v) b
  | .fanSpeed b ch v => rowPorts frameLen (frameRow 2 ch v) b
  | .lightLevel b ch v => rowPorts frameLen (frameRow 4 ch v) b
  | .lightDelay b ch v => rowPorts frameLen (frameRow 5 ch v) b
  | .fanDir b ch v => rowPorts frameLen (frameRow 6 ch v) b

/-- `s` with the statements of a program on the ports at its coming edges, one an edge; what was listed
before comes after them. -/
def loadProgram (program : List Statement) (s : State) : State :=
  { s with inputs := program.map Statement.ports ++ s.inputs }

end Sys2Proof.Machine
end

