-- ==== Sys2Proof/Laws/State.lean ====
section
/-! SUPPORT. State.lean: what each update of the state does to each field, true by unfolding. -/

namespace Sys2Proof.Machine

/-! ### `nextCycle`: the inputs of the edge are used up, no register changes -/

@[simp] theorem nextCycle_rValid (s : State) : (nextCycle s).rValid = s.rValid := rfl
@[simp] theorem nextCycle_rStatus (s : State) : (nextCycle s).rStatus = s.rStatus := rfl
@[simp] theorem nextCycle_rNb0 (s : State) : (nextCycle s).rNb0 = s.rNb0 := rfl
@[simp] theorem nextCycle_rNb1 (s : State) : (nextCycle s).rNb1 = s.rNb1 := rfl
@[simp] theorem nextCycle_rNb2 (s : State) : (nextCycle s).rNb2 = s.rNb2 := rfl
@[simp] theorem nextCycle_rCsumCalc (s : State) : (nextCycle s).rCsumCalc = s.rCsumCalc := rfl
@[simp] theorem nextCycle_rCommand (s : State) : (nextCycle s).rCommand = s.rCommand := rfl
@[simp] theorem nextCycle_rChannel (s : State) : (nextCycle s).rChannel = s.rChannel := rfl
@[simp] theorem nextCycle_rValue (s : State) : (nextCycle s).rValue = s.rValue := rfl
@[simp] theorem nextCycle_rCategory (s : State) : (nextCycle s).rCategory = s.rCategory := rfl
@[simp] theorem nextCycle_rRender (s : State) : (nextCycle s).rRender = s.rRender := rfl
@[simp] theorem nextCycle_rVflag (s : State) : (nextCycle s).rVflag = s.rVflag := rfl
@[simp] theorem nextCycle_rBatchOk (s : State) : (nextCycle s).rBatchOk = s.rBatchOk := rfl
@[simp] theorem nextCycle_inputs (s : State) : (nextCycle s).inputs = s.inputs.tail := rfl
@[simp] theorem nextCycle_edge (s : State) : (nextCycle s).edge = s.edge + 1 := rfl

/-! ### `presentNext`: only the listed inputs change -/

@[simp] theorem presentNext_rValid (p : Ports) (s : State) : (presentNext p s).rValid = s.rValid := rfl
@[simp] theorem presentNext_rStatus (p : Ports) (s : State) : (presentNext p s).rStatus = s.rStatus := rfl
@[simp] theorem presentNext_rNb0 (p : Ports) (s : State) : (presentNext p s).rNb0 = s.rNb0 := rfl
@[simp] theorem presentNext_rNb1 (p : Ports) (s : State) : (presentNext p s).rNb1 = s.rNb1 := rfl
@[simp] theorem presentNext_rNb2 (p : Ports) (s : State) : (presentNext p s).rNb2 = s.rNb2 := rfl
@[simp] theorem presentNext_rCsumCalc (p : Ports) (s : State) : (presentNext p s).rCsumCalc = s.rCsumCalc := rfl
@[simp] theorem presentNext_rCommand (p : Ports) (s : State) : (presentNext p s).rCommand = s.rCommand := rfl
@[simp] theorem presentNext_rChannel (p : Ports) (s : State) : (presentNext p s).rChannel = s.rChannel := rfl
@[simp] theorem presentNext_rValue (p : Ports) (s : State) : (presentNext p s).rValue = s.rValue := rfl
@[simp] theorem presentNext_rCategory (p : Ports) (s : State) : (presentNext p s).rCategory = s.rCategory := rfl
@[simp] theorem presentNext_rRender (p : Ports) (s : State) : (presentNext p s).rRender = s.rRender := rfl
@[simp] theorem presentNext_rVflag (p : Ports) (s : State) : (presentNext p s).rVflag = s.rVflag := rfl
@[simp] theorem presentNext_rBatchOk (p : Ports) (s : State) : (presentNext p s).rBatchOk = s.rBatchOk := rfl
@[simp] theorem presentNext_inputs (p : Ports) (s : State) : (presentNext p s).inputs = p :: s.inputs.tail := rfl
@[simp] theorem presentNext_edge (p : Ports) (s : State) : (presentNext p s).edge = s.edge := rfl

/-! ### `loadProgram`: only the listed inputs change -/

@[simp] theorem loadProgram_rValid (program : List Statement) (s : State) :
    (loadProgram program s).rValid =
      s.rValid := rfl
@[simp] theorem loadProgram_rStatus (program : List Statement) (s : State) :
    (loadProgram program s).rStatus =
      s.rStatus := rfl
@[simp] theorem loadProgram_rNb0 (program : List Statement) (s : State) : (loadProgram program s).rNb0 = s.rNb0 := rfl
@[simp] theorem loadProgram_rNb1 (program : List Statement) (s : State) : (loadProgram program s).rNb1 = s.rNb1 := rfl
@[simp] theorem loadProgram_rNb2 (program : List Statement) (s : State) : (loadProgram program s).rNb2 = s.rNb2 := rfl
@[simp] theorem loadProgram_rCsumCalc (program : List Statement) (s : State) :
    (loadProgram program s).rCsumCalc =
      s.rCsumCalc := rfl
@[simp] theorem loadProgram_rCommand (program : List Statement) (s : State) :
    (loadProgram program s).rCommand =
      s.rCommand := rfl
@[simp] theorem loadProgram_rChannel (program : List Statement) (s : State) :
    (loadProgram program s).rChannel =
      s.rChannel := rfl
@[simp] theorem loadProgram_rValue (program : List Statement) (s : State) :
    (loadProgram program s).rValue =
      s.rValue := rfl
@[simp] theorem loadProgram_rCategory (program : List Statement) (s : State) :
    (loadProgram program s).rCategory =
      s.rCategory := rfl
@[simp] theorem loadProgram_rRender (program : List Statement) (s : State) :
    (loadProgram program s).rRender =
      s.rRender := rfl
@[simp] theorem loadProgram_rVflag (program : List Statement) (s : State) :
    (loadProgram program s).rVflag =
      s.rVflag := rfl
@[simp] theorem loadProgram_rBatchOk (program : List Statement) (s : State) :
    (loadProgram program s).rBatchOk =
      s.rBatchOk := rfl
@[simp] theorem loadProgram_inputs (program : List Statement) (s : State) :
    (loadProgram program s).inputs =
      program.map Statement.ports ++ s.inputs := rfl
@[simp] theorem loadProgram_edge (program : List Statement) (s : State) : (loadProgram program s).edge = s.edge := rfl

/-! ### `loadResult`: the eleven data registers take the tuple -/

@[simp] theorem loadResult_rValid (d : RowResult) (s : State) : (loadResult d s).rValid = s.rValid := rfl
@[simp] theorem loadResult_rStatus (d : RowResult) (s : State) : (loadResult d s).rStatus = d.status.code := rfl
@[simp] theorem loadResult_rNb0 (d : RowResult) (s : State) : (loadResult d s).rNb0 = d.nb0 := rfl
@[simp] theorem loadResult_rNb1 (d : RowResult) (s : State) : (loadResult d s).rNb1 = d.nb1 := rfl
@[simp] theorem loadResult_rNb2 (d : RowResult) (s : State) : (loadResult d s).rNb2 = d.nb2 := rfl
@[simp] theorem loadResult_rCsumCalc (d : RowResult) (s : State) : (loadResult d s).rCsumCalc = d.csumCalc := rfl
@[simp] theorem loadResult_rCommand (d : RowResult) (s : State) : (loadResult d s).rCommand = d.command := rfl
@[simp] theorem loadResult_rChannel (d : RowResult) (s : State) : (loadResult d s).rChannel = d.channel := rfl
@[simp] theorem loadResult_rValue (d : RowResult) (s : State) : (loadResult d s).rValue = d.value := rfl
@[simp] theorem loadResult_rCategory (d : RowResult) (s : State) : (loadResult d s).rCategory = d.category := rfl
@[simp] theorem loadResult_rRender (d : RowResult) (s : State) : (loadResult d s).rRender = d.render := rfl
@[simp] theorem loadResult_rVflag (d : RowResult) (s : State) : (loadResult d s).rVflag = d.vflag := rfl
@[simp] theorem loadResult_rBatchOk (d : RowResult) (s : State) : (loadResult d s).rBatchOk = s.rBatchOk := rfl
@[simp] theorem loadResult_inputs (d : RowResult) (s : State) : (loadResult d s).inputs = s.inputs := rfl
@[simp] theorem loadResult_edge (d : RowResult) (s : State) : (loadResult d s).edge = s.edge := rfl

/-! ### `rowEdge`: all thirteen registers are loaded -/

@[simp] theorem rowEdge_rValid (fb : FrameBytes) (s : State) : (rowEdge fb s).rValid = true := rfl
@[simp] theorem rowEdge_rStatus (fb : FrameBytes) (s : State) :
    (rowEdge fb s).rStatus =
      (rowResult (portsNow s).inLen fb).status.code := rfl
@[simp] theorem rowEdge_rNb0 (fb : FrameBytes) (s : State) : (rowEdge fb s).rNb0 = fb.n0 := rfl
@[simp] theorem rowEdge_rNb1 (fb : FrameBytes) (s : State) : (rowEdge fb s).rNb1 = fb.n1 := rfl
@[simp] theorem rowEdge_rNb2 (fb : FrameBytes) (s : State) : (rowEdge fb s).rNb2 = fb.n2 := rfl
@[simp] theorem rowEdge_rCsumCalc (fb : FrameBytes) (s : State) :
    (rowEdge fb s).rCsumCalc =
      csumCalc fb.n0 fb.n1 := rfl
@[simp] theorem rowEdge_rCommand (fb : FrameBytes) (s : State) : (rowEdge fb s).rCommand = commandOf fb.n0 := rfl
@[simp] theorem rowEdge_rChannel (fb : FrameBytes) (s : State) : (rowEdge fb s).rChannel = channelOf fb.n0 := rfl
@[simp] theorem rowEdge_rValue (fb : FrameBytes) (s : State) : (rowEdge fb s).rValue = valueOf fb.n1 := rfl
@[simp] theorem rowEdge_rCategory (fb : FrameBytes) (s : State) :
    (rowEdge fb s).rCategory =
      romCategory (memRead (commandOf fb.n0)) := rfl
@[simp] theorem rowEdge_rRender (fb : FrameBytes) (s : State) :
    (rowEdge fb s).rRender =
      romRender (memRead (commandOf fb.n0)) := rfl
@[simp] theorem rowEdge_rVflag (fb : FrameBytes) (s : State) :
    (rowEdge fb s).rVflag =
      vclass (romRender (memRead (commandOf fb.n0))) (valueOf fb.n1) := rfl
@[simp] theorem rowEdge_rBatchOk (fb : FrameBytes) (s : State) :
    (rowEdge fb s).rBatchOk =
      batchNext s.rBatchOk (portsNow s).batchStart true (rowResult (portsNow s).inLen fb).status := rfl
@[simp] theorem rowEdge_inputs (fb : FrameBytes) (s : State) : (rowEdge fb s).inputs = s.inputs := rfl
@[simp] theorem rowEdge_edge (fb : FrameBytes) (s : State) : (rowEdge fb s).edge = s.edge := rfl

/-! ### `idleEdge`: `r_valid` falls, the batch flag may be cleared, nothing else changes -/

@[simp] theorem idleEdge_rValid (s : State) : (idleEdge s).rValid = false := rfl
@[simp] theorem idleEdge_rStatus (s : State) : (idleEdge s).rStatus = s.rStatus := rfl
@[simp] theorem idleEdge_rNb0 (s : State) : (idleEdge s).rNb0 = s.rNb0 := rfl
@[simp] theorem idleEdge_rNb1 (s : State) : (idleEdge s).rNb1 = s.rNb1 := rfl
@[simp] theorem idleEdge_rNb2 (s : State) : (idleEdge s).rNb2 = s.rNb2 := rfl
@[simp] theorem idleEdge_rCsumCalc (s : State) : (idleEdge s).rCsumCalc = s.rCsumCalc := rfl
@[simp] theorem idleEdge_rCommand (s : State) : (idleEdge s).rCommand = s.rCommand := rfl
@[simp] theorem idleEdge_rChannel (s : State) : (idleEdge s).rChannel = s.rChannel := rfl
@[simp] theorem idleEdge_rValue (s : State) : (idleEdge s).rValue = s.rValue := rfl
@[simp] theorem idleEdge_rCategory (s : State) : (idleEdge s).rCategory = s.rCategory := rfl
@[simp] theorem idleEdge_rRender (s : State) : (idleEdge s).rRender = s.rRender := rfl
@[simp] theorem idleEdge_rVflag (s : State) : (idleEdge s).rVflag = s.rVflag := rfl
@[simp] theorem idleEdge_rBatchOk (s : State) :
    (idleEdge s).rBatchOk =
      batchNext s.rBatchOk (portsNow s).batchStart false .ok := rfl
@[simp] theorem idleEdge_inputs (s : State) : (idleEdge s).inputs = s.inputs := rfl
@[simp] theorem idleEdge_edge (s : State) : (idleEdge s).edge = s.edge := rfl

/-! ### `resetEdge`: every register is 0 -/

@[simp] theorem resetEdge_rValid (s : State) : (resetEdge s).rValid = false := rfl
@[simp] theorem resetEdge_rStatus (s : State) : (resetEdge s).rStatus = 0 := rfl
@[simp] theorem resetEdge_rNb0 (s : State) : (resetEdge s).rNb0 = 0 := rfl
@[simp] theorem resetEdge_rNb1 (s : State) : (resetEdge s).rNb1 = 0 := rfl
@[simp] theorem resetEdge_rNb2 (s : State) : (resetEdge s).rNb2 = 0 := rfl
@[simp] theorem resetEdge_rCsumCalc (s : State) : (resetEdge s).rCsumCalc = 0 := rfl
@[simp] theorem resetEdge_rCommand (s : State) : (resetEdge s).rCommand = 0 := rfl
@[simp] theorem resetEdge_rChannel (s : State) : (resetEdge s).rChannel = 0 := rfl
@[simp] theorem resetEdge_rValue (s : State) : (resetEdge s).rValue = 0 := rfl
@[simp] theorem resetEdge_rCategory (s : State) : (resetEdge s).rCategory = 0 := rfl
@[simp] theorem resetEdge_rRender (s : State) : (resetEdge s).rRender = 0 := rfl
@[simp] theorem resetEdge_rVflag (s : State) : (resetEdge s).rVflag = false := rfl
@[simp] theorem resetEdge_rBatchOk (s : State) : (resetEdge s).rBatchOk = false := rfl
@[simp] theorem resetEdge_inputs (s : State) : (resetEdge s).inputs = s.inputs := rfl
@[simp] theorem resetEdge_edge (s : State) : (resetEdge s).edge = s.edge := rfl

/-! ### The ports of the next edge -/

theorem portsNow_of_inputs {s : State} {p : Ports} {ps : List Ports} (h : s.inputs = p :: ps) :
    portsNow s = p := by simp [portsNow, h]

@[simp] theorem portsNow_presentNext (p : Ports) (s : State) : portsNow (presentNext p s) = p := rfl

@[simp] theorem portsNow_rowEdge (fb : FrameBytes) (s : State) : portsNow (rowEdge fb s) = portsNow s := rfl

@[simp] theorem portsNow_idleEdge (s : State) : portsNow (idleEdge s) = portsNow s := rfl

@[simp] theorem portsNow_resetEdge (s : State) : portsNow (resetEdge s) = portsNow s := rfl

end Sys2Proof.Machine
end

