-- ==== Sys2Proof/Machine/Record.lean ====
section
/-! DEFINITION. Record.lean: the output ports (10_state.md R32, R33) and the record the Record Emitter
receives (44_command_rom.md R136 to R141). Strings are the observation of a record, not a port (R5). -/

namespace Sys2Proof.Machine

/-! ### Output ports -/

/-- The output ports (R32). -/
structure Outputs where
  outValid : Bool
  outStatus : BitVec 2
  outRecord : Bool
  outNb0 : Byte
  outNb1 : Byte
  outNb2 : Byte
  outCsumCalc : Nibble
  outCommand : Nibble
  outChannel : Nibble
  outValue : Byte
  outCategory : Code3
  outRender : Code3
  outVflag : Bool
  outBatchOk : Bool
  deriving DecidableEq, Repr

/-- Each output port is driven straight from a register, except `out_record` (R32, R33). -/
def outputs (s : State) : Outputs where
  outValid := s.rValid
  outStatus := s.rStatus
  outRecord := outRecord s
  outNb0 := s.rNb0
  outNb1 := s.rNb1
  outNb2 := s.rNb2
  outCsumCalc := s.rCsumCalc
  outCommand := s.rCommand
  outChannel := s.rChannel
  outValue := s.rValue
  outCategory := s.rCategory
  outRender := s.rRender
  outVflag := s.rVflag
  outBatchOk := s.rBatchOk

/-! ### The record -/

/-- MIC_NAME (R8, R139). -/
def micName : String := "nibble_sum"

/-- `catname(category)` (R136). The codes 5 to 7 are never produced; a model that meets one refuses it. -/
def catName (category : Code3) : Except Refusal String :=
  match category.toNat with
  | 0 => .ok "invalid"
  | 1 => .ok "fan_speed"
  | 2 => .ok "light_intensity"
  | 3 => .ok "light_delay"
  | 4 => .ok "fan_direction"
  | _ => .error (.categoryNeverInRecord category)

/-- The record's `command` field: the name "invalid" never appears in an emitted record and is refused
there (R136, U4). -/
def recordCommand (category : Code3) : Except Refusal String :=
  if category = 0 then .error (.categoryNeverInRecord category) else catName category

/-- One decimal digit; used for `n < 10`. -/
def digit (n : Nat) : Char := Char.ofNat (48 + n)

/-- `dec(v)` (R138): the unsigned decimal numeral, no sign, no leading zeros, no padding. Decimal is the
spec's decision D17; the source does not confirm it (assumption log 12, UNVERIFIED). -/
def dec (v : Byte) : String :=
  let n := v.toNat
  if n < 10 then String.ofList [digit n]
  else if n < 100 then String.ofList [digit (n / 10), digit (n % 10)]
  else String.ofList [digit (n / 100), digit (n / 10 % 10), digit (n % 10)]

/-- `render_str(render, value, vflag)` (R137). Render codes 0, 6 and 7 are refused inside a record. -/
def renderStr (render : Code3) (v : Byte) (f : Bool) : Except Refusal String :=
  match render.toNat with
  | 1 => .ok "stop"
  | 2 => .ok ("speed " ++ dec v)
  | 3 => .ok (dec v ++ " %")
  | 4 => .ok (if f then "on" else "off")
  | 5 => .ok (if f then "clockwise" else "counter-clockwise")
  | _ => .error (.renderNeverInRecord render)

/-- A Decoded Record, its six fields in the declared order (R139, R140). -/
structure DecodedRecord where
  model : String
  type : String
  channel : Nat
  command : String
  value : String
  mic : String
  deriving DecidableEq, Repr

/-- A field of a record: a string or an integer (R139). -/
inductive FieldValue where
  | str (s : String)
  | int (n : Nat)
  deriving DecidableEq, Repr

/-- The record as an ordered field list (R140). -/
def DecodedRecord.fieldList (r : DecodedRecord) : List (String × FieldValue) :=
  [("model", .str r.model), ("type", .str r.type), ("channel", .int r.channel),
   ("command", .str r.command), ("value", .str r.value), ("mic", .str r.mic)]

/-- What the Record Emitter receives in a cycle with these outputs (R139): exactly one record when
`out_record = 1`, none otherwise. MODEL_NAME and DEVICE_TYPE are open parameters of the spec (R9, U9). -/
def recordOf (modelName deviceType : String) (o : Outputs) : Except Refusal (Option DecodedRecord) :=
  if o.outRecord then
    match recordCommand o.outCategory, renderStr o.outRender o.outValue o.outVflag with
    | .ok command, .ok value =>
      .ok (some { model := modelName, type := deviceType, channel := o.outChannel.toNat,
                  command := command, value := value, mic := micName })
    | .error r, _ => .error r
    | .ok _, .error r => .error r
  else .ok none

/-- The record in the cycle that follows the last edge (R139, R141). -/
def recordView (modelName deviceType : String) (s : State) : Except Refusal (Option DecodedRecord) :=
  recordOf modelName deviceType (outputs s)

end Sys2Proof.Machine
end

