-- ==== Sys2Proof/Laws/Ops.lean ====
section
/-! SUPPORT. Ops.lean: one lemma for each shared operation that says what it can do, and the case analysis of
one step. -/

namespace Sys2Proof.Machine

/-! ### Checks and status -/

theorem lenOk_iff (len : RowLen) : lenOk len = true ↔ len = 20 := by simp [lenOk, frameLen]

theorem lenOk_iff_toNat (len : RowLen) : lenOk len = true ↔ len.toNat = 20 := by
  rw [lenOk_iff, ← BitVec.toNat_inj]; rfl

/-- The four nibbles as a sum of naturals (R95). -/
theorem nibbleSum_eq (n0 n1 : Byte) :
    nibbleSum n0 n1 = n0.toNat / 16 + n0.toNat % 16 + n1.toNat / 16 + n1.toNat % 16 := by
  simp only [nibbleSum, toNat_hiNibble, toNat_loNibble]

theorem csumOk_iff (n0 n1 n2 : Byte) : csumOk n0 n1 n2 = true ↔ csumCalc n0 n1 = csumRxOf n2 := by
  simp [csumOk]

theorem statusOf_eq_ok_iff (l c m : Bool) : statusOf l c m = .ok ↔ l = true ∧ c = true ∧ m = true := by
  cases l <;> cases c <;> cases m <;> decide

theorem code_eq_zero_iff (st : Status) : st.code = 0 ↔ st = .ok := by cases st <;> decide

theorem code_injective {a b : Status} (h : a.code = b.code) : a = b := by
  revert h; cases a <;> cases b <;> decide

theorem batchNext_eq (b start valid : Bool) (st : Status) :
    batchNext b start valid st = if start then valid && (st == .ok) else b || (valid && (st == .ok)) := rfl

@[simp] theorem batchNext_idle (b start : Bool) (st : Status) : batchNext b start false st = (!start && b) := by
  cases b <;> cases start <;> rfl

/-! ### The ROM -/

/-- What LOOKUP can find: a defined code has category 1 to 4 and render mode 1 to 5, an invalid code has
the all-zero word (R43, R116). -/
theorem memRead_cases (a : Nibble) :
    (romValid (memRead a) = true ∧ romCategory (memRead a) ∈ [1, 2, 3, 4] ∧
        romRender (memRead a) ∈ [1, 2, 3, 4, 5]) ∨ memRead a = 0 := by
  revert a; decide +kernel

/-! ### The edges -/

theorem outRecord_rowEdge (fb : FrameBytes) (s : State) :
    outRecord (rowEdge fb s) = ((rowResult (portsNow s).inLen fb).status == .ok) := by
  rw [outRecord, rowEdge_rValid, rowEdge_rStatus, Bool.true_and]
  cases (rowResult (portsNow s).inLen fb).status <;> rfl

@[simp] theorem outRecord_idleEdge (s : State) : outRecord (idleEdge s) = false := rfl

@[simp] theorem outRecord_resetEdge (s : State) : outRecord (resetEdge s) = false := rfl

@[simp] theorem outRecord_nextCycle (s : State) : outRecord (nextCycle s) = outRecord s := rfl

/-- Every instruction is one row edge with its Frame Bytes. -/
theorem exec_eq_rowEdge (i : Instr) (s : State) :
    exec i s = .next (rowEdge (frameBytes i.code i.channel i.value i.csum) s) := by
  cases i <;> rfl

/-- Executing a decoded row is the row edge of its normalized bytes (R145, R148). -/
theorem exec_decode (row : Row) (s : State) : exec (decode row) s = .next (rowEdge (normalizeRow row) s) := by
  rw [exec_eq_rowEdge, frameBytes_decode]

/-! ### One step -/

theorem step_of_reset {s : State} (h : (portsNow s).rst = true) : step s = .next (nextCycle (resetEdge s)) := by
  simp [step, clockEdge, h]

theorem step_of_idle {s : State} (h : (portsNow s).rst = false) (hv : (portsNow s).inValid = false) :
    step s = .next (nextCycle (idleEdge s)) := by
  simp [step, clockEdge, h, hv]

theorem step_of_row {s : State} (h : (portsNow s).rst = false) (hv : (portsNow s).inValid = true) :
    step s = mapNext nextCycle (exec (decode (portsNow s).inRow) s) := by
  simp [step, clockEdge, h, hv]

/-- Everything one step can do. -/
theorem step_cases {s t : State} (h : step s = .next t) :
    ((portsNow s).rst = true ∧ t = nextCycle (resetEdge s)) ∨
    ((portsNow s).rst = false ∧ (portsNow s).inValid = false ∧ t = nextCycle (idleEdge s)) ∨
    ((portsNow s).rst = false ∧ (portsNow s).inValid = true ∧
      ∃ i, i = decode (portsNow s).inRow ∧
        t = nextCycle (rowEdge (frameBytes i.code i.channel i.value i.csum) s)) := by
  cases hr : (portsNow s).rst with
  | true => left; rw [step_of_reset hr] at h; cases h; exact ⟨rfl, rfl⟩
  | false =>
    right
    cases hv : (portsNow s).inValid with
    | false => left; rw [step_of_idle hr hv] at h; cases h; exact ⟨rfl, rfl, rfl⟩
    | true =>
      right
      rw [step_of_row hr hv, exec_eq_rowEdge] at h
      cases h
      exact ⟨rfl, rfl, _, rfl, rfl⟩

/-! ### Runs -/

@[simp] theorem run_zero (s : State) : Sys2Proof.core.run 0 s = .next s := rfl

/-- A run takes its first step and goes on. -/
theorem core_run_succ {n : Nat} {s t : Sys2Proof.core.State} (h : Sys2Proof.core.step s = .next t) :
    Sys2Proof.core.run (n + 1) s = Sys2Proof.core.run n t := by
  simp only [Host.Core.run, h]

/-- The same in the model's own names. -/
theorem run_succ_of_next {n : Nat} {s t : State} (h : step s = .next t) :
    Sys2Proof.core.run (n + 1) s = Sys2Proof.core.run n t := core_run_succ h

/-- One step uses up the first entry of the listed inputs. -/
theorem inputs_of_step {s t : State} (h : step s = .next t) : t.inputs = s.inputs.tail := by
  rcases step_cases h with ⟨_, rfl⟩ | ⟨_, _, rfl⟩ | ⟨_, _, _, _, rfl⟩ <;> rfl

end Sys2Proof.Machine
end

