-- ==== Sys2Proof/Laws/PerInstr.lean ====
section
/-! SUPPORT. PerInstr.lean: for every instruction, its encoding stands in its own row of
spec/opcode_table.json and in no other. -/

namespace Sys2Proof.Laws.RowMatch

/-- The rows of the opcode table whose match/mask pattern applies to the instruction's encoding are
exactly one: the row of its command code and mnemonic (30_encoding.md R70). -/
def Statement (i : Instr) : Prop :=
  (opcodeTable.filter (fun r => r.hits (encode i))).map (fun r => (r.code, r.mnemonic)) =
    [(i.code, i.mnemonic)]

/-- The command field of an encoding: `in_row[19:16]` is the command code reflected (R62). -/
theorem mask_encode (i : Instr) :
    encode i &&& 0x0F0000 = joinBytes (joinNibbles 0 (rev4 i.code)) 0 0 := by
  apply BitVec.eq_of_getElem_eq
  intro j hj
  rw [getElem_joinBytes _ _ _ _ hj, BitVec.getElem_and, encode, enc, getElem_joinBytes _ _ _ _ hj]
  interval_cases j <;>
    simp [frameBytes, getElem_rev8, getElem_joinNibbles, getElem_rev4]

/-- Which table rows a code's mask field hits, for each of the 16 codes. -/
theorem hits_by_code (c : Nibble) :
    opcodeTable.filter (fun r => joinBytes (joinNibbles 0 (rev4 c)) 0 0 == r.bits) =
      opcodeTable.filter (fun r => r.code == c) := by
  revert c; decide +kernel

theorem hits_eq (i : Instr) :
    opcodeTable.filter (fun r => r.hits (encode i)) = opcodeTable.filter (fun r => r.code == i.code) := by
  rw [← hits_by_code]
  apply List.filter_congr
  intro r hr
  have hm : r.mask = 0x0F0000 := by
    revert r; decide
  rw [OpcodeRow.hits, hm, mask_encode]

theorem invalid0 (ch : Nibble) (v : Byte) (k : Nibble) : Statement (.invalid0 ch v k) := by
  rw [Statement, hits_eq]; rfl

theorem fanStop (ch : Nibble) (v : Byte) (k : Nibble) : Statement (.fanStop ch v k) := by
  rw [Statement, hits_eq]; rfl

theorem fanSpeed (ch : Nibble) (v : Byte) (k : Nibble) : Statement (.fanSpeed ch v k) := by
  rw [Statement, hits_eq]; rfl

theorem invalid3 (ch : Nibble) (v : Byte) (k : Nibble) : Statement (.invalid3 ch v k) := by
  rw [Statement, hits_eq]; rfl

theorem lightLevel (ch : Nibble) (v : Byte) (k : Nibble) : Statement (.lightLevel ch v k) := by
  rw [Statement, hits_eq]; rfl

theorem lightDelay (ch : Nibble) (v : Byte) (k : Nibble) : Statement (.lightDelay ch v k) := by
  rw [Statement, hits_eq]; rfl

theorem fanDir (ch : Nibble) (v : Byte) (k : Nibble) : Statement (.fanDir ch v k) := by
  rw [Statement, hits_eq]; rfl

theorem invalid7 (ch : Nibble) (v : Byte) (k : Nibble) : Statement (.invalid7 ch v k) := by
  rw [Statement, hits_eq]; rfl

theorem invalid8 (ch : Nibble) (v : Byte) (k : Nibble) : Statement (.invalid8 ch v k) := by
  rw [Statement, hits_eq]; rfl

theorem invalid9 (ch : Nibble) (v : Byte) (k : Nibble) : Statement (.invalid9 ch v k) := by
  rw [Statement, hits_eq]; rfl

theorem invalid10 (ch : Nibble) (v : Byte) (k : Nibble) : Statement (.invalid10 ch v k) := by
  rw [Statement, hits_eq]; rfl

theorem invalid11 (ch : Nibble) (v : Byte) (k : Nibble) : Statement (.invalid11 ch v k) := by
  rw [Statement, hits_eq]; rfl

theorem invalid12 (ch : Nibble) (v : Byte) (k : Nibble) : Statement (.invalid12 ch v k) := by
  rw [Statement, hits_eq]; rfl

theorem invalid13 (ch : Nibble) (v : Byte) (k : Nibble) : Statement (.invalid13 ch v k) := by
  rw [Statement, hits_eq]; rfl

theorem invalid14 (ch : Nibble) (v : Byte) (k : Nibble) : Statement (.invalid14 ch v k) := by
  rw [Statement, hits_eq]; rfl

theorem invalid15 (ch : Nibble) (v : Byte) (k : Nibble) : Statement (.invalid15 ch v k) := by
  rw [Statement, hits_eq]; rfl

end Sys2Proof.Laws.RowMatch
end

