-- ==== Sys2Proof/WellFormed.lean ====
section
/-! DEFINITION. WellFormed.lean: when a frame is fully valid (30_encoding.md R70). Every operand of an
instruction is a bit vector of its field's exact width, so syntax alone admits no ill-formed operand;
what the spec asks of a frame beyond that are the three conditions of R70. A frame that misses one
is still executed: it is rejected by status (60_exceptions.md R165). -/

namespace Sys2Proof

/-- The length condition of R70: `in_len == 20`. -/
def lengthWellFormed (len : RowLen) : Bool := len.toNat == 20

/-- The checksum condition of R70, in field terms (R97): the sum of the command code, the complemented
channel and the two nibbles of the value, modulo 16, is the received nibble. -/
def Instr.checksumWellFormed (i : Instr) : Bool :=
  (i.code.toNat + (15 - i.channel.toNat) + i.value.toNat / 16 + i.value.toNat % 16) % 16 == i.csum.toNat

/-- The opcode condition of R70: the command code is one of the five defined ones (R68). -/
def Instr.codeWellFormed : Instr → Bool
  | .invalid0 _ _ _ => false
  | .fanStop _ _ _ => true
  | .fanSpeed _ _ _ => true
  | .invalid3 _ _ _ => false
  | .lightLevel _ _ _ => true
  | .lightDelay _ _ _ => true
  | .fanDir _ _ _ => true
  | .invalid7 _ _ _ => false
  | .invalid8 _ _ _ => false
  | .invalid9 _ _ _ => false
  | .invalid10 _ _ _ => false
  | .invalid11 _ _ _ => false
  | .invalid12 _ _ _ => false
  | .invalid13 _ _ _ => false
  | .invalid14 _ _ _ => false
  | .invalid15 _ _ _ => false

/-- R70: a frame is fully valid only when all three conditions hold. -/
def Instr.fullyValid (len : RowLen) (i : Instr) : Bool :=
  lengthWellFormed len && i.checksumWellFormed && i.codeWellFormed

end Sys2Proof
end

