-- ==== Sys2Proof/Safety.lean ====
section
/-! DEFINITION. Safety.lean: the vocabulary of the statements: when the registers are consistent, and what an
observer of the output ports sees over several edges. -/

namespace Sys2Proof.Machine

/-- The data registers hold the result of some row (R145): every register is the function of the Frame
Bytes that the datapath makes it, and the status is one that the checks allow. -/
abbrev State.holdsRow (s : State) : Prop :=
  hiNibble s.rNb2 = 0 ∧
  s.rCsumCalc = csumCalc s.rNb0 s.rNb1 ∧
  s.rCommand = commandOf s.rNb0 ∧
  s.rChannel = channelOf s.rNb0 ∧
  s.rValue = valueOf s.rNb1 ∧
  s.rCategory = romCategory (memRead s.rCommand) ∧
  s.rRender = romRender (memRead s.rCommand) ∧
  s.rVflag = vclass s.rRender s.rValue ∧
  (s.rStatus = Status.errLen.code ∨
    s.rStatus = (statusOf true (csumOk s.rNb0 s.rNb1 s.rNb2) (romValid (memRead s.rCommand))).code)

/-- The data registers are as a reset edge leaves them (R36). -/
abbrev State.dataCleared (s : State) : Prop :=
  s.rStatus = 0 ∧ s.rNb0 = 0 ∧ s.rNb1 = 0 ∧ s.rNb2 = 0 ∧ s.rCsumCalc = 0 ∧ s.rCommand = 0 ∧
  s.rChannel = 0 ∧ s.rValue = 0 ∧ s.rCategory = 0 ∧ s.rRender = 0 ∧ s.rVflag = false

/-- The invariant of every state after a reset edge: the data registers hold a row's result, or they are
cleared and no row has been presented yet (R24); and a record on the outputs is counted in its batch
(R30, R150). -/
abbrev State.consistent (s : State) : Prop :=
  (s.holdsRow ∨ (s.dataCleared ∧ s.rValid = false)) ∧
  (outRecord s = true → s.rBatchOk = true)

/-- The output ports after each of the next `n` edges, in order, up to a fault or a refusal (R50, R149). -/
def outputsTrace : Nat → State → List Outputs
  | 0, _ => []
  | n + 1, s =>
    match step s with
    | .next t => outputs t :: outputsTrace n t
    | .fault _ => []
    | .refused _ => []

/-- The input ports of edge `p` present a row that produces a record (R147). -/
def Ports.hit (p : Ports) : Bool :=
  !p.rst && p.inValid && ((datapath p.inLen p.inRow).status == .ok)

end Sys2Proof.Machine
end

