-- ==== Sys2Proof/Certificates/Slice0/Obligations.lean ====
section
/-! DEFINITION. Obligations.lean: the statements for the provers. The reference values of `Claims` are written
from the rules of spec/ in natural-number and single-bit terms, apart from the model's own operations. -/

open Sys2Proof Sys2Proof.Machine

namespace Sys2Proof.Claims

/-! ### Reference values, from the rules -/

/-- `N0 = {cmd, (~ch)[3:0]}` (R74). -/
def byte0 (c ch : Nibble) : Byte := BitVec.ofNat 8 (16 * c.toNat + (15 - ch.toNat))

/-- The checksum in field terms (R97). -/
def csumNat (c ch : Nibble) (v : Byte) : Nat :=
  (c.toNat + (15 - ch.toNat) + v.toNat / 16 + v.toNat % 16) % 16

/-- The checksum nibble a frame must carry (R97). -/
def csum (c ch : Nibble) (v : Byte) : Nibble := BitVec.ofNat 4 (csumNat c ch v)

/-- The status code of a row (R165, R169) from its length, checksum agreement and command validity. -/
def statusCode (len : RowLen) (csumAgrees valid : Bool) : BitVec 2 :=
  if len.toNat ≠ 20 then 1 else if !csumAgrees then 2 else if !valid then 3 else 0

/-- The batch flag after a row (R150). -/
def batchAfterRow (b start : Bool) (status : BitVec 2) : Bool :=
  if start then decide (status = 0) else b || decide (status = 0)

/-- The state after the edge of a row with command code `c` and operands `ch`, `v`, `k`, whose ROM word has
the given validity, category and render mode and whose value bit is `vf` (R148, R150). Everything that is
not a register is as before. -/
def afterFrame (c ch : Nibble) (v : Byte) (k : Nibble) (valid : Bool) (category render : Code3) (vf : Bool)
    (s : State) : State :=
  let st := statusCode (portsNow s).inLen (csumNat c ch v == k.toNat) valid
  { s with
    rValid := true
    rStatus := st
    rNb0 := byte0 c ch
    rNb1 := v
    rNb2 := BitVec.ofNat 8 k.toNat
    rCsumCalc := csum c ch v
    rCommand := c
    rChannel := ch
    rValue := v
    rCategory := category
    rRender := render
    rVflag := vf
    rBatchOk := batchAfterRow s.rBatchOk (portsNow s).batchStart st }

/-- With length 20 and a good checksum, `mk ch v` gives status OK and exactly the record with category name
`command` and value string `value v` (R33, R139), for every MODEL_NAME and DEVICE_TYPE. -/
def Records (c : Nibble) (mk : Nibble → Byte → Nibble → Instr) (command : String) (value : Byte → String) :
    Prop :=
  ∀ (ch : Nibble) (v : Byte) (s : State) (modelName deviceType : String), (portsNow s).inLen = 20 →
    ∃ t, exec (mk ch v (csum c ch v)) s = .next t ∧ t.rStatus = 0 ∧ outRecord t = true ∧
      recordView modelName deviceType t =
        .ok (some ⟨modelName, deviceType, ch.toNat, command, value v, "nibble_sum"⟩)

/-- Every encoding of `mk` has the match/mask pattern `bits` over `in_row[19:16]` (R70). -/
def EncodesAs (mk : Nibble → Byte → Nibble → Instr) (bits : Row) : Prop :=
  ∀ (ch : Nibble) (v : Byte) (k : Nibble), encode (mk ch v k) &&& 0x0F0000 = bits

/-! ### The datapath of R145, bit by bit on the port -/

/-- `N0[b] = in_row[23-b]` (R87). -/
def nb0 (row : Row) : Byte := BitVec.ofFnLE fun b : Fin 8 => row.getLsbD (23 - b)

/-- `N1[b] = in_row[15-b]` (R87). -/
def nb1 (row : Row) : Byte := BitVec.ofFnLE fun b : Fin 8 => row.getLsbD (15 - b)

/-- `N2[b] = in_row[7-b]` for `b` in 0..3, and 0 for `b` in 4..7 (R87). -/
def nb2 (row : Row) : Byte := BitVec.ofFnLE fun b : Fin 8 => decide (b.val < 4) && row.getLsbD (7 - b)

/-- The checksum of R95 on bytes. -/
def csumOfBytes (n0 n1 : Byte) : Nat := (n0.toNat / 16 + n0.toNat % 16 + n1.toNat / 16 + n1.toNat % 16) % 16

/-- The table of R116: valid, category, render of a command code. -/
def romEntry (c : Nibble) : Bool × Code3 × Code3 :=
  if c = 1 then (true, 1, 1) else if c = 2 then (true, 1, 2) else if c = 4 then (true, 2, 3)
  else if c = 5 then (true, 3, 4) else if c = 6 then (true, 4, 5) else (false, 0, 0)

/-- The value bit of R123, R124, R130. -/
def valueBit (c : Nibble) (v : Byte) : Bool :=
  if c = 5 then decide (v.toNat ≠ 0) else if c = 6 then decide (v.toNat = 7) else false

/-- The state after an edge that takes the row on ports `p` (R145, R148, R150). -/
def afterRow (p : Ports) (s : State) : State :=
  let n0 := nb0 p.inRow
  let n1 := nb1 p.inRow
  let n2 := nb2 p.inRow
  let c : Nibble := BitVec.ofNat 4 (n0.toNat / 16)
  let e := romEntry c
  let st := statusCode p.inLen (csumOfBytes n0 n1 == n2.toNat % 16) e.1
  { s with
    rValid := true
    rStatus := st
    rNb0 := n0
    rNb1 := n1
    rNb2 := n2
    rCsumCalc := BitVec.ofNat 4 (csumOfBytes n0 n1)
    rCommand := c
    rChannel := BitVec.ofNat 4 (15 - n0.toNat % 16)
    rValue := n1
    rCategory := e.2.1
    rRender := e.2.2
    rVflag := valueBit c n1
    rBatchOk := batchAfterRow s.rBatchOk p.batchStart st }

/-- The state with the inputs of one edge used up (assumption log 1 and 2). -/
def edgeDone (s : State) : State := { s with inputs := s.inputs.tail, edge := s.edge + 1 }

/-- STEP (R148): the state after one rising edge with ports `p`. -/
def clocked (p : Ports) (s : State) : State :=
  if p.rst then { State.reset with inputs := s.inputs, edge := s.edge }
  else if p.inValid then afterRow p s
  else { s with rValid := false, rBatchOk := !p.batchStart && s.rBatchOk }

/-- Outputs `o` are the result cycle of an edge with ports `p` and no reset (R149, R151): `out_valid` tells
whether a row was presented; a presented row shows its own status, fields and record strobe. -/
def ShowsResultOf (p : Ports) (o : Outputs) : Prop :=
  o.outValid = p.inValid ∧
  o.outRecord = (p.inValid && (decode p.inRow).fullyValid p.inLen) ∧
  (p.inValid = true →
    o.outNb0 = nb0 p.inRow ∧ o.outNb1 = nb1 p.inRow ∧ o.outNb2 = nb2 p.inRow ∧
    o.outCommand = (decode p.inRow).code ∧ o.outChannel = (decode p.inRow).channel ∧
    o.outValue = (decode p.inRow).value ∧
    o.outStatus = statusCode p.inLen (decode p.inRow).checksumWellFormed (decode p.inRow).codeWellFormed)

/-- The eleven invalid codes with their constructors (R69, R125). -/
def invalidCodes : List (Nibble × (Nibble → Byte → Nibble → Instr)) :=
  [(0, .invalid0), (3, .invalid3), (7, .invalid7), (8, .invalid8), (9, .invalid9), (10, .invalid10),
   (11, .invalid11), (12, .invalid12), (13, .invalid13), (14, .invalid14), (15, .invalid15)]

/-- The registers of `t` are those of a reset edge (R36). -/
def RegistersCleared (t : State) : Prop :=
  t = { State.reset with inputs := t.inputs, edge := t.edge }

end Sys2Proof.Claims

/-! ### Encoding -/

/-- Decoding the encoding of an instruction gives it back, for every operand value of every row. -/
def Obligations.DecodeOfEncodeIsTheInstruction : Prop :=
  ∀ i : Instr, decode (encode i) = i

/-- Encoding a decoded row gives the row back with its padding bits cleared: no other bit is dropped. -/
def Obligations.EncodeOfDecodeClearsThePaddingOnly : Prop :=
  ∀ row : Row, encode (decode row) = row &&& 0xFFFFF0#24

/-- Every 24-bit port value matches exactly one row of the opcode table, the row of the command code and
mnemonic of the decoded instruction, and that row is marked valid exactly for codes 1, 2, 4, 5, 6. -/
def Obligations.EveryRowMatchesExactlyItsOpcodeTableRow : Prop :=
  ∀ row : Row, ∃ r, opcodeTable.filter (fun r => r.hits row) = [r] ∧
    r.code = (decode row).code ∧ r.mnemonic = (decode row).mnemonic ∧
    r.valid = (decode row).codeWellFormed ∧ (r.valid = true ↔ r.code ∈ [1, 2, 4, 5, 6])

/-- The words of 95_test_vectors.md sections 2.5 and 2.6, written out from the wire layout, decode to the
instructions they stand for. -/
def Obligations.WordsOfTheTestVectorsDecode : Prop :=
  decode 0x50E080 = .invalid0 5 7 1 ∧ decode 0x58E040 = .fanStop 5 7 2 ∧
  decode 0x54E0C0 = .fanSpeed 5 7 3 ∧ decode 0x5CE020 = .invalid3 5 7 4 ∧
  decode 0x52E0A0 = .lightLevel 5 7 5 ∧ decode 0x5AE060 = .lightDelay 5 7 6 ∧
  decode 0x56E0E0 = .fanDir 5 7 7 ∧ decode 0x5EE010 = .invalid7 5 7 8 ∧
  decode 0x5FE000 = .invalid15 5 7 0 ∧ decode 0xB6E140 = .fanDir 2 0x87 2

/-- R61, R62, R110: where each operand bit stands on the wire and on the port. -/
def Obligations.FieldsFollowTheWireLayout : Prop :=
  ∀ row : Row,
    (∀ i < 4, (decode row).channel.getLsbD i = !transmittedBit row i ∧
      (decode row).code.getLsbD i = transmittedBit row (4 + i) ∧
      (decode row).csum.getLsbD i = transmittedBit row (16 + i)) ∧
    (∀ i < 8, (decode row).value.getLsbD i = transmittedBit row (8 + i)) ∧
    (∀ i < 4, (decode row).channel.getLsbD i = !row.getLsbD (23 - i) ∧
      (decode row).code.getLsbD i = row.getLsbD (19 - i) ∧
      (decode row).csum.getLsbD i = row.getLsbD (7 - i)) ∧
    (∀ i < 8, (decode row).value.getLsbD i = row.getLsbD (15 - i))

/-- R71: two edges whose ports differ in the padding bits only have the same outcome. -/
def Obligations.PaddingBitsChangeNothing : Prop :=
  ∀ (p : Ports) (row : Row) (s : State), row &&& 0xFFFFF0#24 = p.inRow &&& 0xFFFFF0#24 →
    decode row = decode p.inRow ∧
    ∃ t, step (presentNext p s) = .next t ∧ step (presentNext { p with inRow := row } s) = .next t

/-- The model's own (assumption log 6): the byte decoder takes exactly three packed bytes, P0 first, and
rejects any other number of bytes by name. -/
def Obligations.ByteDecoderTakesThreeBytesOnly : Prop :=
  (∀ row : Row, decodeBytes [packed0 row, packed1 row, packed2 row] = .ok (decode row)) ∧
  (∀ bytes : List Byte, bytes.length ≠ 3 → decodeBytes bytes = .error (.wrongByteCount bytes.length))

/-! ### The components -/

/-- R85: NORMALIZE, with its corner cases and example. -/
def Obligations.NormalizerReflectsEachPackedByte : Prop :=
  (∀ (b : Byte), ∀ i < 8, (rev8 b).getLsbD i = b.getLsbD (7 - i)) ∧
  (∀ row : Row, normalizeRow row =
    ⟨rev8 (row.extractLsb' 16 8), rev8 (row.extractLsb' 8 8), rev8 (row.extractLsb' 0 8 &&& 0xF0)⟩) ∧
  (∀ row pad : Row, (normalizeRow (row ^^^ (pad &&& 0x00000F))).n2 = (normalizeRow row).n2) ∧
  (∀ b ∈ ([0x00, 0xFF, 0x81, 0x3C, 0x5A, 0xA5, 0x18, 0x24, 0x42, 0x66, 0x99, 0xBD, 0xC3, 0xDB, 0xE7,
    0x7E] : List Byte), rev8 b = b) ∧
  normalizeRow 0x54E0C0 = ⟨0x2A, 0x07, 0x03⟩

/-- R80: LENGTH_GATE. Only 20 passes, and every instruction on a row of another length gets ERR_LEN. -/
def Obligations.LengthGatePassesTwentyOnly : Prop :=
  (∀ len : RowLen, lenOk len = true ↔ len.toNat = 20) ∧
  (lenOk 0 = false ∧ lenOk 19 = false ∧ lenOk 21 = false ∧ lenOk 24 = false ∧ lenOk 65535 = false) ∧
  (∀ (i : Instr) (s : State), (portsNow s).inLen.toNat ≠ 20 →
    ∃ t, exec i s = .next t ∧ t.rStatus = 1 ∧ outRecord t = false)

/-- R95: CSUM_CALC, with its corner cases and example. -/
def Obligations.ChecksumIsTheNibbleSumModuloSixteen : Prop :=
  (∀ n0 n1 : Byte, (csumCalc n0 n1).toNat =
    (n0.toNat / 16 + n0.toNat % 16 + n1.toNat / 16 + n1.toNat % 16) % 16) ∧
  (∀ n0 n1 : Byte, nibbleSum n0 n1 ≤ 60) ∧
  nibbleSum 0xFF 0xFF = 60 ∧ csumCalc 0xFF 0xFF = 0xC ∧ csumCalc 0x44 0x44 = 0 ∧ csumCalc 0x88 0x88 = 0 ∧
  nibbleSum 0x44 0x44 = 16 ∧ nibbleSum 0x88 0x88 = 32 ∧ nibbleSum 0xCC 0xCC = 48 ∧
  csumCalc 0xCC 0xCC = 0 ∧ nibbleSum 0x2A 0x07 = 19 ∧ csumCalc 0x2A 0x07 = 3 ∧
  (∀ (i : Instr) (s : State), ∃ t, exec i s = .next t ∧ t.rCsumCalc = csumCalc t.rNb0 t.rNb1)

/-- R96: CSUM_CHECK, with its examples. On a row of length 20 the checksum alone decides between ERR_CSUM and
the rest: a disagreement gives ERR_CSUM whatever the command code, agreement never does. -/
def Obligations.ChecksumCheckDecidesErrCsum : Prop :=
  (∀ n0 n1 n2 : Byte, csumOk n0 n1 n2 = true ↔
    (n0.toNat / 16 + n0.toNat % 16 + n1.toNat / 16 + n1.toNat % 16) % 16 = n2.toNat % 16) ∧
  (∀ (i : Instr) (s : State), (portsNow s).inLen = 20 →
    ∃ t, exec i s = .next t ∧ (t.rStatus = 2 ↔ i.checksumWellFormed = false)) ∧
  csumOk 0x2A 0x07 0x03 = true ∧ csumOk 0x2A 0x07 0x04 = false ∧ csumOk 0x00 0x00 0x00 = true ∧
  (∀ (s : State), (portsNow s).inLen = 20 → ∃ t, exec (decode 0x000000) s = .next t ∧ t.rStatus = 3)

/-- R96: any single wrong bit among the 20 transmitted bits of a row of length 20 with a good checksum is
caught: the row with that bit flipped gets ERR_CSUM and no record, whatever its command code. -/
def Obligations.EverySingleBitErrorIsCaught : Prop :=
  ∀ (row : Row) (i : Nat) (b : Bool) (s : State), i < 20 → (decode row).checksumWellFormed = true →
    ∃ t, step (presentNext (rowPorts 20 (row ^^^ (1#24 <<< (23 - i))) b) s) = .next t ∧
      t.rStatus = 2 ∧ outRecord t = false

/-- R105, R106, R107: the extracted fields, with corner cases and examples; every channel and every value of a
defined command can be fully valid. -/
def Obligations.ExtractorSplitsTheFrameBytes : Prop :=
  (∀ n0 : Byte, (commandOf n0).toNat = n0.toNat / 16 ∧ (channelOf n0).toNat = 15 - n0.toNat % 16) ∧
  (∀ n1 : Byte, valueOf n1 = n1) ∧
  commandOf 0x0F = 0 ∧ commandOf 0xF0 = 15 ∧ commandOf 0x2A = 2 ∧ channelOf 0x2A = 5 ∧
  channelOf 0x0F = 0 ∧ channelOf 0x00 = 15 ∧ valueOf 0x07 = 7 ∧
  (∀ (i : Instr) (s : State), ∃ t, exec i s = .next t ∧
    t.rCommand = commandOf t.rNb0 ∧ t.rChannel = channelOf t.rNb0 ∧ t.rValue = valueOf t.rNb1) ∧
  (∀ (c : Nibble) (ch : Nibble) (v : Byte), c ∈ ([1, 2, 4, 5, 6] : List Nibble) →
    (Instr.ofCode c ch v (Claims.csum c ch v)).fullyValid 20 = true)

/-- R115 and R116: the sixteen words of the ROM and the three fields of each. -/
def Obligations.RomHoldsTheSixteenWords : Prop :=
  (∀ a : Nibble, memRead a =
    (if a = 1 then 0x49 else if a = 2 then 0x4A else if a = 4 then 0x53 else if a = 5 then 0x5C
     else if a = 6 then 0x65 else 0x00)) ∧
  (∀ a : Nibble, (romValid (memRead a), romCategory (memRead a), romRender (memRead a)) = Claims.romEntry a)

/-- R130 and R131: VCLASS is two exact-match comparisons. -/
def Obligations.ClassifierIsTwoExactMatches : Prop :=
  (∀ (render : Code3) (value : Byte), vclass render value =
    (if render = 4 then decide (value.toNat ≠ 0) else if render = 5 then decide (value.toNat = 7) else false)) ∧
  vclass 5 0x07 = true ∧ vclass 5 0x00 = false ∧ vclass 4 0x01 = true ∧
  (∀ (i : Instr) (s : State), ∃ t, exec i s = .next t ∧ t.rVflag = vclass t.rRender t.rValue)

/-- R169: STATUS_SELECT, the earliest failing stage gives the reason. -/
def Obligations.EarliestFailingStageGivesTheStatus : Prop :=
  (∀ c m, (statusOf false c m).code = 1) ∧ (∀ m, (statusOf true false m).code = 2) ∧
  (statusOf true true false).code = 3 ∧ (statusOf true true true).code = 0

/-! ### The instructions -/

/-- R120: FAN_STOP. -/
def Obligations.FanStopResult : Prop :=
  (∀ ch v k s, exec (.fanStop ch v k) s = .next (Claims.afterFrame 1 ch v k true 1 1 false s)) ∧
  Claims.Records 1 .fanStop "fan_speed" (fun _ => "stop") ∧
  Claims.EncodesAs .fanStop 0x080000 ∧ memRead 1 = 0x49 ∧
  normalizeRow 0x38FFD0 = ⟨0x1C, 0xFF, 0x0B⟩ ∧ decode 0x38FFD0 = .fanStop 3 0xFF (Claims.csum 1 3 0xFF)

/-- R121: FAN_SPEED. -/
def Obligations.FanSpeedResult : Prop :=
  (∀ ch v k s, exec (.fanSpeed ch v k) s = .next (Claims.afterFrame 2 ch v k true 1 2 false s)) ∧
  Claims.Records 2 .fanSpeed "fan_speed" (fun v => "speed " ++ toString v.toNat) ∧
  Claims.EncodesAs .fanSpeed 0x040000 ∧ memRead 2 = 0x4A ∧
  normalizeRow 0x54E0C0 = ⟨0x2A, 0x07, 0x03⟩ ∧ decode 0x54E0C0 = .fanSpeed 5 7 (Claims.csum 2 5 7)

/-- R122: LIGHT_LEVEL. -/
def Obligations.LightLevelResult : Prop :=
  (∀ ch v k s, exec (.lightLevel ch v k) s = .next (Claims.afterFrame 4 ch v k true 2 3 false s)) ∧
  Claims.Records 4 .lightLevel "light_intensity" (fun v => toString v.toNat ++ " %") ∧
  Claims.EncodesAs .lightLevel 0x020000 ∧ memRead 4 = 0x53 ∧
  normalizeRow 0xF226B0 = ⟨0x4F, 0x64, 0x0D⟩ ∧ decode 0xF226B0 = .lightLevel 0 100 (Claims.csum 4 0 100)

/-- R123: LIGHT_DELAY. -/
def Obligations.LightDelayResult : Prop :=
  (∀ ch v k s, exec (.lightDelay ch v k) s =
    .next (Claims.afterFrame 5 ch v k true 3 4 (decide (v.toNat ≠ 0)) s)) ∧
  Claims.Records 5 .lightDelay "light_delay" (fun v => if v.toNat = 0 then "off" else "on") ∧
  Claims.EncodesAs .lightDelay 0x0A0000 ∧ memRead 5 = 0x5C ∧
  decode 0x0A00A0 = .lightDelay 15 0 (Claims.csum 5 15 0) ∧
  decode 0x0A8060 = .lightDelay 15 1 (Claims.csum 5 15 1)

/-- R124: FAN_DIR. -/
def Obligations.FanDirResult : Prop :=
  (∀ ch v k s, exec (.fanDir ch v k) s =
    .next (Claims.afterFrame 6 ch v k true 4 5 (decide (v.toNat = 7)) s)) ∧
  Claims.Records 6 .fanDir "fan_direction"
    (fun v => if v.toNat = 7 then "clockwise" else "counter-clockwise") ∧
  Claims.EncodesAs .fanDir 0x060000 ∧ memRead 6 = 0x65 ∧
  decode 0x66E0C0 = .fanDir 9 7 (Claims.csum 6 9 7) ∧ decode 0x660030 = .fanDir 9 0 (Claims.csum 6 9 0)

/-- R125: INVALID, each of the eleven codes: category, render and value bit 0, ERR_CMD when the length and
the checksum are good, the earlier reason otherwise, and never a record. -/
def Obligations.InvalidCodesResult : Prop :=
  (∀ e ∈ Claims.invalidCodes, ∀ ch v k s,
    exec (e.2 ch v k) s = .next (Claims.afterFrame e.1 ch v k false 0 0 false s)) ∧
  (∀ e ∈ Claims.invalidCodes, ∀ ch v k s, ∃ t, exec (e.2 ch v k) s = .next t ∧ outRecord t = false ∧
    ∀ modelName deviceType, recordView modelName deviceType t = .ok none) ∧
  (∀ e ∈ Claims.invalidCodes, ∀ ch v k, (encode (e.2 ch v k) &&& 0x0F0000) =
    BitVec.ofNat 24 ((rev4 e.1).toNat * 65536)) ∧
  (∀ e ∈ Claims.invalidCodes, memRead e.1 = 0x00) ∧
  decode 0x000000 = .invalid0 15 0 0 ∧ Claims.csum 0 15 0 = 0 ∧
  decode 0xF000F0 = .invalid0 0 0 (Claims.csum 0 0 0) ∧ decode 0x7C40C0 = .invalid3 1 2 (Claims.csum 3 1 2)

/-- R82, R170, R171: a row that is not fully valid is loaded like any other: the eleven data registers take the
row's own bytes, checksum, fields, ROM word and value bit, as `Claims.afterFrame` gives them. The rejection
shows only in the non-zero status, in the absence of a record, and in the batch flag, which is as if the row
had not come; everything that is no register is unchanged. -/
def Obligations.RejectedRowIsLoadedWithoutARecord : Prop :=
  ∀ (i : Instr) (s : State), i.fullyValid (portsNow s).inLen = false →
    ∃ t, exec i s = .next t ∧
      t = Claims.afterFrame i.code i.channel i.value i.csum i.codeWellFormed (Claims.romEntry i.code).2.1
        (Claims.romEntry i.code).2.2 (Claims.valueBit i.code i.value) s ∧
      t.rStatus ≠ 0 ∧ outRecord t = false ∧ t.rValid = true ∧
      t.rBatchOk = (if (portsNow s).batchStart then false else s.rBatchOk) ∧
      t.inputs = s.inputs ∧ t.edge = s.edge

/-! ### The step -/

/-- A step whose edge presents a row runs the decoded instruction and then uses up the edge's inputs. -/
def Obligations.StepRunsTheDecodedInstruction : Prop :=
  ∀ s : State, (portsNow s).rst = false → (portsNow s).inValid = true →
    ∃ t, exec (decode (portsNow s).inRow) s = .next t ∧ step s = .next (Claims.edgeDone t)

/-- The model's own (assumption log 3): with a frame word placed by `withFetchWord`, the very next step runs
exactly the instruction the decoder reads from that word. -/
def Obligations.PlacedWordRunsAtTheNextStep : Prop :=
  ∀ (s : State) (w : Nat), w < 2 ^ 24 →
    ∃ i t, decodeTableWord 24 w = some i ∧ exec i (s.withFetchWord 24 w) = .next t ∧
      step (s.withFetchWord 24 w) = .next (Claims.edgeDone t) ∧ (portsNow (s.withFetchWord 24 w)).inLen = 20

/-- R145, R148, R150: every step is the clocked update, with the datapath written bit by bit on the port. -/
def Obligations.StepIsTheClockedUpdate : Prop :=
  ∀ s : State, step s = .next (Claims.edgeDone (Claims.clocked (portsNow s) s))

/-- R186: at a reset edge every register is cleared, whatever row or batch start stands on the other ports;
nothing of the row remains. -/
def Obligations.ResetOutranksEveryOtherInput : Prop :=
  ∀ s : State, (portsNow s).rst = true →
    step s = .next { State.reset with inputs := s.inputs.tail, edge := s.edge + 1 }

/-- R155: an idle edge holds the eleven data registers; only `r_valid` and, with `batch_start`, `r_batch_ok`
fall. -/
def Obligations.IdleEdgeHoldsTheDataRegisters : Prop :=
  ∀ s : State, (portsNow s).rst = false → (portsNow s).inValid = false →
    step s = .next { s with rValid := false,
                            rBatchOk := if (portsNow s).batchStart then false else s.rBatchOk,
                            inputs := s.inputs.tail, edge := s.edge + 1 }

/-- R150: the batch flag after every edge. -/
def Obligations.BatchFlagAfterEveryEdge : Prop :=
  ∀ s : State, ∃ t, step s = .next t ∧
    t.rBatchOk =
      (let p := portsNow s
       let hit := p.inValid && ((datapath p.inLen p.inRow).status.code == 0)
       if p.rst then false else if p.batchStart then hit else s.rBatchOk || hit)

/-- R147, R70: a presented row gives a record exactly when it is fully valid. -/
def Obligations.RowRecordsExactlyWhenFullyValid : Prop :=
  ∀ s : State, (portsNow s).rst = false → (portsNow s).inValid = true →
    ∃ t, step s = .next t ∧
      (outRecord t = true ↔ (decode (portsNow s).inRow).fullyValid (portsNow s).inLen = true) ∧
      (outRecord t = true ↔ t.rStatus = 0)

/-- R172: no state and no input stops the machine, for any number of edges; and from wherever it has come, a
row presented next is decoded exactly as right after reset. -/
def Obligations.NothingStopsTheMachine : Prop :=
  ∀ (n : Nat) (s : State), ∃ t, Sys2Proof.core.run n s = .next t ∧
    ∀ p : Ports, p.rst = false → p.inValid = true →
      ∃ u w, step (presentNext p t) = .next u ∧ step (presentNext p State.reset) = .next w ∧
        outputs u = { outputs w with outBatchOk := u.rBatchOk }

/-- R154: the status and fields of a row depend on its length and bits alone, not on the registers, the
batch, `batch_start` or the history. -/
def Obligations.RowResultIsIndependentOfHistory : Prop :=
  ∀ s s' : State, (portsNow s).rst = false → (portsNow s').rst = false →
    (portsNow s).inValid = true → (portsNow s').inValid = true →
    (portsNow s).inLen = (portsNow s').inLen → (portsNow s).inRow = (portsNow s').inRow →
    ∃ t t', step s = .next t ∧ step s' = .next t' ∧
      outputs t = { outputs t' with outBatchOk := t.rBatchOk }

/-- R146, R80, R110: a bit row of any length, as the Frame Source presents it. Any number of bits but 20 gives
ERR_LEN; 20 bits give the fields in transmission order. -/
def Obligations.BitRowsOfAnyLengthAreGatedAndDecoded : Prop :=
  ∀ (bits : List Bool) (filler : Row) (b : Bool) (s : State),
    ∃ t, step (presentNext (frameSourcePorts bits filler b) s) = .next t ∧
      (bits.length ≠ 20 → t.rStatus = 1 ∧ outRecord t = false) ∧
      (bits.length = 20 → t.rStatus ≠ 1 ∧
        (∀ j < 4, t.rChannel.getLsbD j = !(bits.getD j false) ∧
          t.rCommand.getLsbD j = bits.getD (4 + j) false ∧
          t.rNb2.getLsbD j = bits.getD (16 + j) false) ∧
        (∀ j < 8, t.rValue.getLsbD j = bits.getD (8 + j) false))

/-! ### Runs -/

/-- R151, R149: over any sequence of edges without reset, every presented row has its own result cycle, one
edge later, in the order presented, and edges without a row have none. -/
def Obligations.EveryRowHasItsResultCycleInOrder : Prop :=
  ∀ (ps rest : List Ports) (s : State), s.inputs = ps ++ rest → (∀ p ∈ ps, p.rst = false) →
    List.Forall₂ Claims.ShowsResultOf ps (outputsTrace ps.length s)

/-- R152: the batch flag after the last row of a batch, opened by `batch_start` or by reset, is 1 exactly when
at least one row of the batch was fully valid, so produced a record. -/
def Obligations.BatchSucceedsExactlyWhenARowRecords : Prop :=
  ∀ (p : Ports) (ps rest : List Ports) (s : State), s.inputs = p :: (ps ++ rest) →
    (p.rst = true ∨ p.batchStart = true) → (∀ q ∈ ps, q.rst = false ∧ q.batchStart = false) →
    ∃ t, Sys2Proof.core.run (ps.length + 1) s = .next t ∧ t.inputs = rest ∧
      (t.rBatchOk = true ↔ ∃ q ∈ p :: ps, q.rst = false ∧ q.inValid = true ∧
        (decode q.inRow).fullyValid q.inLen = true)

/-- R187: after a reset edge, and as long as no row is presented, every register stays 0, and so do the
outputs. -/
def Obligations.OutputsStayClearAfterResetUntilARow : Prop :=
  ∀ (p : Ports) (ps rest : List Ports) (s : State), s.inputs = p :: (ps ++ rest) → p.rst = true →
    (∀ q ∈ ps, q.inValid = false) →
    ∃ t, Sys2Proof.core.run (ps.length + 1) s = .next t ∧ Claims.RegistersCleared t ∧ t.inputs = rest ∧
      outputs t = outputs State.reset

/-- R141: the same fully valid row in two cycles gives two records, the same one twice; an idle cycle after
them holds the fields and has no record. -/
def Obligations.RepeatedRowRecordsTwiceAndIdleNever : Prop :=
  ∀ (p q : Ports) (rest : List Ports) (s : State) (modelName deviceType : String),
    s.inputs = p :: p :: q :: rest → p.rst = false → p.inValid = true →
    (decode p.inRow).fullyValid p.inLen = true → q.rst = false → q.inValid = false →
    ∃ r t1 t2 t3, step s = .next t1 ∧ step t1 = .next t2 ∧ step t2 = .next t3 ∧
      recordView modelName deviceType t1 = .ok (some r) ∧
      recordView modelName deviceType t2 = .ok (some r) ∧
      recordView modelName deviceType t3 = .ok none ∧
      t3.rValid = false ∧ t3 = { t2 with rValid := false, rBatchOk := t3.rBatchOk, inputs := rest, edge := t3.edge }

/-! ### Invariants -/

/-- Every step keeps the registers consistent: the data registers are one row's result, or cleared with no row
presented yet, and a record on the outputs is counted in its batch. -/
def Obligations.EveryStepKeepsTheRegistersConsistent : Prop :=
  ∀ s t : State, s.consistent → step s = .next t → t.consistent

/-- The registers are consistent after reset. -/
def Obligations.ResetStateIsConsistent : Prop :=
  State.reset.consistent

/-- From consistent registers the record view never refuses, and it holds a record exactly when
`out_record = 1`. -/
def Obligations.ConsistentStateNeverRefusesItsRecord : Prop :=
  ∀ (s : State) (modelName deviceType : String), s.consistent →
    ∃ r, recordView modelName deviceType s = .ok r ∧ (r.isSome = true ↔ outRecord s = true)

/-! ### Outputs, records, notation -/

/-- R32: each output port is driven straight from its register, `out_record` from R33. -/
def Obligations.OutputsAreDrivenFromTheRegisters : Prop :=
  ∀ s : State, outputs s =
    ⟨s.rValid, s.rStatus, s.rValid && decide (s.rStatus = 0), s.rNb0, s.rNb1, s.rNb2, s.rCsumCalc, s.rCommand,
     s.rChannel, s.rValue, s.rCategory, s.rRender, s.rVflag, s.rBatchOk⟩

/-- R138: `dec` is the decimal numeral. -/
def Obligations.ValueNumeralIsDecimal : Prop :=
  (∀ v : Byte, dec v = toString v.toNat) ∧ dec 0 = "0" ∧ dec 7 = "7" ∧ dec 100 = "100" ∧ dec 255 = "255"

/-- R136 and R137: the category names; and inside a record the model refuses the category codes 0, 5, 6, 7 and the render codes
0, 6, 7. -/
def Obligations.RecordRefusesCodesNeverProduced : Prop :=
  (catName 0 = .ok "invalid" ∧ catName 1 = .ok "fan_speed" ∧ catName 2 = .ok "light_intensity" ∧
    catName 3 = .ok "light_delay" ∧ catName 4 = .ok "fan_direction") ∧
  (∀ c ∈ ([0, 5, 6, 7] : List Code3), recordCommand c = .error (.categoryNeverInRecord c)) ∧
  (∀ c ∈ ([0, 6, 7] : List Code3), ∀ v f, renderStr c v f = .error (.renderNeverInRecord c)) ∧
  (∀ (o : Outputs) (modelName deviceType : String), o.outRecord = true →
    (o.outCategory ∈ ([0, 5, 6, 7] : List Code3) ∨ o.outRender ∈ ([0, 6, 7] : List Code3)) →
    ∃ r, recordOf modelName deviceType o = .error r)

/-- R140: the declared order of a record's fields. -/
def Obligations.RecordFieldsStandInTheDeclaredOrder : Prop :=
  ∀ r : DecodedRecord, r.fieldList.map Prod.fst = ["model", "type", "channel", "command", "value", "mic"] ∧
    r.fieldList.map Prod.snd = [.str r.model, .str r.type, .int r.channel, .str r.command, .str r.value, .str r.mic]

/-- R73: the ports in the cycle of each statement, and the suffix `.B` of each row statement. -/
def Obligations.StatementsDriveThePortsTheyName : Prop :=
  (∀ b len row, (Statement.row b len row).ports = ⟨false, true, len, row, b⟩) ∧
  (∀ len row, (Statement.idle len row).ports = ⟨false, false, len, row, false⟩) ∧
  (∀ len row, (Statement.bstart len row).ports = ⟨false, false, len, row, true⟩) ∧
  (∀ valid len row b, (Statement.reset valid len row b).ports = ⟨true, valid, len, row, b⟩) ∧
  (∀ b cmd ch v k, (Statement.frame b cmd ch v).ports.batchStart = b ∧
    (Statement.frameK b cmd ch v k).ports.batchStart = b ∧ (Statement.fanStop b ch v).ports.batchStart = b ∧
    (Statement.fanSpeed b ch v).ports.batchStart = b ∧ (Statement.lightLevel b ch v).ports.batchStart = b ∧
    (Statement.lightDelay b ch v).ports.batchStart = b ∧ (Statement.fanDir b ch v).ports.batchStart = b)

/-- R74: each pseudo-instruction presents one 20-bit row that decodes to its operands, FRAME with the
checksum that makes it pass and FRAME_K with the one given; the five mnemonics are FRAME with their codes. -/
def Obligations.PseudoInstructionsAssembleTheirFrames : Prop :=
  (∀ b cmd ch v, ∃ row, (Statement.frame b cmd ch v).ports = rowPorts 20 row b ∧
    decode row = Instr.ofCode cmd ch v (Claims.csum cmd ch v) ∧ row &&& 0x00000F = 0 ∧
    (decode row).checksumWellFormed = true) ∧
  (∀ b cmd ch v k, ∃ row, (Statement.frameK b cmd ch v k).ports = rowPorts 20 row b ∧
    decode row = Instr.ofCode cmd ch v k ∧ row &&& 0x00000F = 0) ∧
  (∀ b ch v, (Statement.fanStop b ch v).ports = (Statement.frame b 1 ch v).ports ∧
    (Statement.fanSpeed b ch v).ports = (Statement.frame b 2 ch v).ports ∧
    (Statement.lightLevel b ch v).ports = (Statement.frame b 4 ch v).ports ∧
    (Statement.lightDelay b ch v).ports = (Statement.frame b 5 ch v).ports ∧
    (Statement.fanDir b ch v).ports = (Statement.frame b 6 ch v).ports) ∧
  (Statement.fanSpeed false 5 7).ports = ⟨false, true, 20, 0x54E0C0, false⟩
end

