-- ==== Sys2Proof/Tests/Slice0.lean ====
section
/-! SUPPORT. Slice0.lean: the model's own tests, with expected values from spec/95_test_vectors.md and from the
examples of the rules, and for each statement with hypotheses a state that meets them. -/

namespace Sys2Proof.Tests

open Sys2Proof.Machine

/-- The reset state with one row on its ports. -/
def rowState (len : RowLen) (row : Row) (b : Bool) : State := presentNext (rowPorts len row b) State.reset

/-- The reset state with one statement on its ports. -/
def stmtState (st : Statement) : State := presentNext st.ports State.reset

/-- The next state of one step; the state itself where there is none. -/
def after (s : State) : State :=
  match step s with
  | .next t => t
  | .fault _ => s
  | .refused _ => s

/-- The record's channel, command and value strings, if there is a record. -/
def recordOut (s : State) : Option (Nat × String × String) :=
  match recordView "" "" s with
  | .ok (some r) => some (r.channel, r.command, r.value)
  | .ok none => none
  | .error _ => none

/-! ### Decoding, one word for each row of the opcode table (95_test_vectors.md section 2.5) -/

theorem test_decode_invalid0 : decode 0x50E080 = .invalid0 5 7 0x01 := by decide
theorem test_decode_fanStop : decode 0x58E040 = .fanStop 5 7 0x02 := by decide
theorem test_decode_fanSpeed : decode 0x54E0C0 = .fanSpeed 5 7 0x03 := by decide
theorem test_decode_invalid3 : decode 0x5CE020 = .invalid3 5 7 0x04 := by decide
theorem test_decode_lightLevel : decode 0x52E0A0 = .lightLevel 5 7 0x05 := by decide
theorem test_decode_lightDelay : decode 0x5AE060 = .lightDelay 5 7 0x06 := by decide
theorem test_decode_fanDir : decode 0x56E0E0 = .fanDir 5 7 0x07 := by decide
theorem test_decode_invalid7 : decode 0x5EE010 = .invalid7 5 7 0x08 := by decide
theorem test_decode_invalid8 : decode 0x51E090 = .invalid8 5 7 0x09 := by decide
theorem test_decode_invalid9 : decode 0x59E050 = .invalid9 5 7 0x0A := by decide
theorem test_decode_invalid10 : decode 0x55E0D0 = .invalid10 5 7 0x0B := by decide
theorem test_decode_invalid11 : decode 0x5DE030 = .invalid11 5 7 0x0C := by decide
theorem test_decode_invalid12 : decode 0x53E0B0 = .invalid12 5 7 0x0D := by decide
theorem test_decode_invalid13 : decode 0x5BE070 = .invalid13 5 7 0x0E := by decide
theorem test_decode_invalid14 : decode 0x57E0F0 = .invalid14 5 7 0x0F := by decide
theorem test_decode_invalid15 : decode 0x5FE000 = .invalid15 5 7 0x00 := by decide

/-! ### One step of each instruction (section 2.5): status, N0, N2, category, render, value bit -/

theorem test_step_invalid0 :
    let t := after (rowState 20 0x50E080 false)
    (t.rStatus, t.rNb0, t.rNb2, t.rCategory, t.rRender, t.rVflag) =
      (3, 0x0A, 0x01, 0, 0, false) := by decide
theorem test_step_fanStop :
    let t := after (rowState 20 0x58E040 false)
    (t.rStatus, t.rNb0, t.rNb2, t.rCategory, t.rRender, t.rVflag) =
      (0, 0x1A, 0x02, 1, 1, false) := by decide
theorem test_step_fanSpeed :
    let t := after (rowState 20 0x54E0C0 false)
    (t.rStatus, t.rNb0, t.rNb2, t.rCategory, t.rRender, t.rVflag) =
      (0, 0x2A, 0x03, 1, 2, false) := by decide
theorem test_step_invalid3 :
    let t := after (rowState 20 0x5CE020 false)
    (t.rStatus, t.rNb0, t.rNb2, t.rCategory, t.rRender, t.rVflag) =
      (3, 0x3A, 0x04, 0, 0, false) := by decide
theorem test_step_lightLevel :
    let t := after (rowState 20 0x52E0A0 false)
    (t.rStatus, t.rNb0, t.rNb2, t.rCategory, t.rRender, t.rVflag) =
      (0, 0x4A, 0x05, 2, 3, false) := by decide
theorem test_step_lightDelay :
    let t := after (rowState 20 0x5AE060 false)
    (t.rStatus, t.rNb0, t.rNb2, t.rCategory, t.rRender, t.rVflag) =
      (0, 0x5A, 0x06, 3, 4, true) := by decide
theorem test_step_fanDir :
    let t := after (rowState 20 0x56E0E0 false)
    (t.rStatus, t.rNb0, t.rNb2, t.rCategory, t.rRender, t.rVflag) =
      (0, 0x6A, 0x07, 4, 5, true) := by decide
theorem test_step_invalid7 :
    let t := after (rowState 20 0x5EE010 false)
    (t.rStatus, t.rNb0, t.rNb2, t.rCategory, t.rRender, t.rVflag) =
      (3, 0x7A, 0x08, 0, 0, false) := by decide
theorem test_step_invalid8 :
    let t := after (rowState 20 0x51E090 false)
    (t.rStatus, t.rNb0, t.rNb2, t.rCategory, t.rRender, t.rVflag) =
      (3, 0x8A, 0x09, 0, 0, false) := by decide
theorem test_step_invalid9 :
    let t := after (rowState 20 0x59E050 false)
    (t.rStatus, t.rNb0, t.rNb2, t.rCategory, t.rRender, t.rVflag) =
      (3, 0x9A, 0x0A, 0, 0, false) := by decide
theorem test_step_invalid10 :
    let t := after (rowState 20 0x55E0D0 false)
    (t.rStatus, t.rNb0, t.rNb2, t.rCategory, t.rRender, t.rVflag) =
      (3, 0xAA, 0x0B, 0, 0, false) := by decide
theorem test_step_invalid11 :
    let t := after (rowState 20 0x5DE030 false)
    (t.rStatus, t.rNb0, t.rNb2, t.rCategory, t.rRender, t.rVflag) =
      (3, 0xBA, 0x0C, 0, 0, false) := by decide
theorem test_step_invalid12 :
    let t := after (rowState 20 0x53E0B0 false)
    (t.rStatus, t.rNb0, t.rNb2, t.rCategory, t.rRender, t.rVflag) =
      (3, 0xCA, 0x0D, 0, 0, false) := by decide
theorem test_step_invalid13 :
    let t := after (rowState 20 0x5BE070 false)
    (t.rStatus, t.rNb0, t.rNb2, t.rCategory, t.rRender, t.rVflag) =
      (3, 0xDA, 0x0E, 0, 0, false) := by decide
theorem test_step_invalid14 :
    let t := after (rowState 20 0x57E0F0 false)
    (t.rStatus, t.rNb0, t.rNb2, t.rCategory, t.rRender, t.rVflag) =
      (3, 0xEA, 0x0F, 0, 0, false) := by decide
theorem test_step_invalid15 :
    let t := after (rowState 20 0x5FE000 false)
    (t.rStatus, t.rNb0, t.rNb2, t.rCategory, t.rRender, t.rVflag) =
      (3, 0xFA, 0x00, 0, 0, false) := by decide

/-! ### Records (section 2.6) -/

theorem test_record_fanStop : recordOut (after (rowState 20 0xB80160 false)) = some (2, "fan_speed", "stop") := by
  decide
theorem test_record_fanSpeed :
    recordOut (after (rowState 20 0xB4FFB0 false)) = some (2, "fan_speed", "speed 255") := by decide
theorem test_record_lightLevel :
    recordOut (after (rowState 20 0xB20080 false)) = some (2, "light_intensity", "0 %") := by decide
theorem test_record_lightDelay :
    recordOut (after (rowState 20 0xBA0150 false)) = some (2, "light_delay", "on") := by decide
theorem test_record_fanDir :
    recordOut (after (rowState 20 0xB6E140 false)) = some (2, "fan_direction", "counter-clockwise") := by decide
theorem test_record_invalid : recordOut (after (rowState 20 0x5CE020 false)) = none := by decide

/-! ### Normalizer and checksum (sections 2.2 and 2.3) -/

theorem test_normalize_general : normalizeRow 0x123456 = ⟨0x48, 0x2C, 0x0A⟩ := by decide
theorem test_normalize_padding_dropped : normalizeRow 0xFFFFFF = ⟨0xFF, 0xFF, 0x0F⟩ := by decide
theorem test_normalize_first_bit : normalizeRow 0x80000F = ⟨0x01, 0x00, 0x00⟩ := by decide
theorem test_csum_largest : csumCalc 0xFF 0xFF = 0xC := by decide
theorem test_csum_wraps_twice : csumCalc 0x88 0x88 = 0x0 := by decide

/-! ### Status priority (section 2.7) -/

theorem test_status_csum_before_cmd : (after (rowState 20 0x5CE0A0 false)).rStatus = 2 := by decide
theorem test_status_len_before_csum : (after (rowState 19 0x54E020 false)).rStatus = 1 := by decide
theorem test_status_len_before_cmd : (after (rowState 21 0x5CE020 false)).rStatus = 1 := by decide
theorem test_status_all_zero_frame : (after (rowState 20 0x000000 false)).rStatus = 3 := by decide
theorem test_rejected_row_loads_fields :
    let t := after (rowState 19 0x54E0C0 false)
    (t.rValid, t.rCommand, t.rChannel, t.rValue, t.rCsumCalc) = (true, 2, 5, 7, 3) := by decide

/-! ### Batch flag, idle and reset edges (section 2.8, programs P3 and P4) -/

/-- The state after P4's edge 5: a record counted in the batch. -/
def recorded (p : Ports) : State := presentNext p (after (rowState 20 0xF600A0 false))

theorem test_batch_kept_by_rejected_row :
    (after (recorded (rowPorts 21 0xF600A0 false))).rBatchOk = true := by decide
theorem test_batch_start_with_rejected_row :
    (after (recorded (rowPorts 21 0xF600A0 true))).rBatchOk = false := by decide
theorem test_bstart_clears_batch_only :
    let t := after (recorded (Statement.bstart 0 0).ports)
    (t.rBatchOk, t.rValid, t.rNb0, t.rCommand, outRecord t) = (false, false, 0x6F, 6, false) := by decide
theorem test_idle_keeps_batch : (after (recorded (Statement.idle 20 0xF600A0).ports)).rBatchOk = true := by decide
theorem test_reset_over_row :
    let t := after (recorded (Statement.reset true 20 0xF600A0 true).ports)
    (t.rValid, t.rNb0, t.rBatchOk, t.rStatus) = (false, 0x00, false, 0) := by decide

/-! ### Assembler and Frame Source -/

theorem test_asm_fanSpeed : (Statement.fanSpeed true 12 200).ports = ⟨false, true, 20, 0xC41390, true⟩ := by decide
theorem test_asm_frameK : (Statement.frameK false 6 1 7 0).ports = ⟨false, true, 20, 0x76E000, false⟩ := by decide
/-- T1: `t_0 .. t_19` = `0101 0100 1110 0000 1100` is `ROW 20, 0x54E0C0`. -/
theorem test_frameSource_T1 :
    frameSourcePorts [false, true, false, true, false, true, false, false, true, true, true, false, false, false,
      false, false, true, true, false, false] 0 false = ⟨false, true, 20, 0x54E0C0, false⟩ := by decide
theorem test_placed_word_runs :
    (decodeTableWord 24 0x54E0C0 = some (.fanSpeed 5 7 3)) ∧
      (after (State.reset.withFetchWord 24 0x54E0C0)).rCommand = 2 := by decide

/-! ### WellFormed: an ill-formed term for each check -/

theorem test_wellFormed_accepts : (Instr.fanSpeed 5 7 3).fullyValid 20 = true := by decide
theorem test_wellFormed_refuses_length : (Instr.fanSpeed 5 7 3).fullyValid 19 = false := by decide
theorem test_wellFormed_refuses_checksum : (Instr.fanSpeed 5 7 4).fullyValid 20 = false := by decide
theorem test_wellFormed_refuses_code : (Instr.invalid3 5 7 4).fullyValid 20 = false := by decide

/-! ### Witnesses: states and operands that meet the hypotheses of the statements -/

/-- PaddingBitsChangeNothing. -/
theorem witness_padding : (0x54E0CF : Row) &&& 0xFFFFF0 = (rowPorts 20 0x54E0C0 true).inRow &&& 0xFFFFF0 := by decide
/-- ByteDecoderTakesThreeBytesOnly. -/
theorem witness_bytes : ([0x54, 0xE0] : List Byte).length ≠ 3 ∧
    decodeBytes [0x54, 0xE0] = .error (.wrongByteCount 2) := ⟨by decide, rfl⟩
/-- LengthGatePassesTwentyOnly: one bit short and one bit long. -/
theorem witness_length : (portsNow (rowState 19 0x54E0C0 false)).inLen.toNat ≠ 20 ∧
    (portsNow (rowState 21 0x54E0C0 false)).inLen.toNat ≠ 20 := by decide
/-- EverySingleBitErrorIsCaught: the first and the last transmitted bit. -/
theorem witness_singleBit : (decode 0x54E0C0).checksumWellFormed = true ∧
    (after (rowState 20 (0x54E0C0 ^^^ (1#24 <<< (23 - 0))) false)).rStatus = 2 ∧
    (after (rowState 20 (0x54E0C0 ^^^ (1#24 <<< (23 - 19))) false)).rStatus = 2 := by decide
/-- Claims.Records, the hypothesis of the five command statements, and ChecksumCheckDecidesErrCsum. -/
theorem witness_records : (portsNow (rowState 20 0x54E0C0 false)).inLen = 20 := by decide
/-- InvalidCodesResult: the list of codes is not empty. -/
theorem witness_invalid : Claims.invalidCodes.length = 11 := by decide
/-- RejectedRowIsLoadedWithoutARecord: by length, checksum and command. -/
theorem witness_rejection :
    (Instr.fanSpeed 5 7 3).fullyValid (portsNow (rowState 19 0 false)).inLen = false ∧
    (Instr.fanSpeed 5 7 4).fullyValid (portsNow (rowState 20 0 false)).inLen = false ∧
    (Instr.invalid3 5 7 4).fullyValid (portsNow (rowState 20 0 true)).inLen = false := by decide
/-- StepRunsTheDecodedInstruction, RowRecordsExactlyWhenFullyValid. -/
theorem witness_row : (portsNow (rowState 20 0x54E0C0 false)).rst = false ∧
    (portsNow (rowState 20 0x54E0C0 false)).inValid = true := by decide
/-- PlacedWordRunsAtTheNextStep: the smallest and the largest word. -/
theorem witness_placed : 0 < 2 ^ 24 ∧ 0xFFFFFF < 2 ^ 24 := by decide
/-- ResetOutranksEveryOtherInput, with a valid row and a batch start on the ports. -/
theorem witness_reset : (portsNow (stmtState (.reset true 20 0xF600A0 true))).rst = true := by decide
/-- IdleEdgeHoldsTheDataRegisters: without and with batch start. -/
theorem witness_idle :
    ((portsNow (stmtState (.idle 0 0))).rst = false ∧ (portsNow (stmtState (.idle 0 0))).inValid = false) ∧
    ((portsNow (stmtState (.bstart 0 0))).rst = false ∧ (portsNow (stmtState (.bstart 0 0))).inValid = false ∧
      (portsNow (stmtState (.bstart 0 0))).batchStart = true) := by decide
/-- RowResultIsIndependentOfHistory: two different states with the same row. -/
theorem witness_independent :
    let s := rowState 20 0x54E0C0 false
    let s' := recorded (rowPorts 20 0x54E0C0 true)
    s ≠ s' ∧ (portsNow s).rst = false ∧ (portsNow s').rst = false ∧ (portsNow s).inValid = true ∧
      (portsNow s').inValid = true ∧ (portsNow s).inLen = (portsNow s').inLen ∧
      (portsNow s).inRow = (portsNow s').inRow := by decide
/-- NothingStopsTheMachine: a row's ports, and a run of no step. -/
theorem witness_run : Sys2Proof.core.run 0 State.reset = .next State.reset ∧
    (rowPorts 20 0x54E0C0 false).rst = false ∧ (rowPorts 20 0x54E0C0 false).inValid = true :=
  ⟨rfl, rfl, rfl⟩
/-- BitRowsOfAnyLengthAreGatedAndDecoded: both lengths, and a count beyond the port's width. -/
theorem witness_bitRows : (List.replicate 20 true).length = 20 ∧ (List.replicate 65556 true).length ≠ 20 :=
  ⟨rfl, by rw [List.length_replicate]; decide⟩
/-- EveryRowHasItsResultCycleInOrder: two rows and an idle edge between them. -/
theorem witness_order :
    let ps := [(Statement.fanSpeed true 5 7).ports, (Statement.idle 0 0).ports, (Statement.row false 19 0x54E0C0).ports]
    (loadProgram [.fanSpeed true 5 7, .idle 0 0, .row false 19 0x54E0C0] State.reset).inputs = ps ++ [] ∧
      ∀ p ∈ ps, p.rst = false := by decide
/-- BatchSucceedsExactlyWhenARowRecords: a batch opened by `batch_start`, and one opened by reset. -/
theorem witness_batch :
    ((Statement.fanSpeed true 5 7).ports.rst = true ∨ (Statement.fanSpeed true 5 7).ports.batchStart = true) ∧
    ((Statement.reset false 0 0 false).ports.rst = true ∨ (Statement.reset false 0 0 false).ports.batchStart = true) ∧
    (∀ q ∈ [(Statement.row false 19 0x54E0C0).ports], q.rst = false ∧ q.batchStart = false) := by decide
/-- OutputsStayClearAfterResetUntilARow. -/
theorem witness_clear : (Statement.reset true 20 0x54E0C0 true).ports.rst = true ∧
    ∀ q ∈ [(Statement.idle 1 2).ports, (Statement.bstart 3 4).ports], q.inValid = false := by decide
/-- RepeatedRowRecordsTwiceAndIdleNever: P4's edges 4 and 5. -/
theorem witness_repeat :
    let p := (Statement.fanDir false 0 0).ports
    let q := (Statement.idle 0 0).ports
    (loadProgram [.fanDir false 0 0, .fanDir false 0 0, .idle 0 0] State.reset).inputs = [p, p, q] ∧
      p.rst = false ∧ p.inValid = true ∧ (decode p.inRow).fullyValid p.inLen = true ∧ q.rst = false ∧
      q.inValid = false := by decide
/-- EveryStepKeepsTheRegistersConsistent, ConsistentStateNeverRefusesItsRecord: a state with a record on its
outputs. -/
theorem witness_consistent : (recorded (rowPorts 20 0x54E0C0 false)).consistent ∧
    outRecord (recorded (rowPorts 20 0x54E0C0 false)) = true := by decide
theorem witness_consistent_step :
    step (recorded (rowPorts 20 0x54E0C0 false)) = .next (after (recorded (rowPorts 20 0x54E0C0 false))) := rfl
/-- RecordRefusesCodesNeverProduced: outputs that no run shows. -/
theorem witness_refused :
    (⟨true, 0, true, 0, 0, 0, 0, 0, 0, 0, 5, 1, false, false⟩ : Outputs).outRecord = true ∧
    (⟨true, 0, true, 0, 0, 0, 0, 0, 0, 0, 5, 1, false, false⟩ : Outputs).outCategory ∈ ([0, 5, 6, 7] : List Code3) := by
  decide

end Sys2Proof.Tests
end

section
/-! The statements of 10_state.md: the output ports. -/

namespace Sys2Proof.Proofs

open Sys2Proof.Machine

/-- R33, with the comparison of the status as a decided equation. -/
theorem outRecord_eq_and_decide (s : State) :
    outRecord s = (s.rValid && decide (s.rStatus = 0)) := by
  rw [outRecord, beq_eq_decide]

/-- Settles O41: `outputs` names the register of every port, and the one computed port is the strobe of R33. -/
theorem outputsAreDrivenFromTheRegisters : Obligations.OutputsAreDrivenFromTheRegisters := by
  intro s
  rw [outputs, outRecord_eq_and_decide]

end Sys2Proof.Proofs
end

section
/-! The statements of 30_encoding.md: the don't-care padding of a row, and the ports of each assembler
statement. -/

namespace Sys2Proof.Proofs

open Sys2Proof.Machine

/-! ### The padding bits (R71) -/

theorem packed0_and (a b : Row) : packed0 (a &&& b) = packed0 a &&& packed0 b := BitVec.extractLsb'_and

theorem packed1_and (a b : Row) : packed1 (a &&& b) = packed1 a &&& packed1 b := BitVec.extractLsb'_and

theorem packed2_and (a b : Row) : packed2 (a &&& b) = packed2 a &&& packed2 b := BitVec.extractLsb'_and

/-- NORMALIZE forces the padding to 0 itself (R88), so a row with its padding cleared normalizes alike. -/
theorem normalizeRow_clearPadding (row : Row) : normalizeRow (row &&& 0xFFFFF0#24) = normalizeRow row := by
  have mask0 : packed0 0xFFFFF0#24 = BitVec.allOnes 8 := by decide
  have mask1 : packed1 0xFFFFF0#24 = BitVec.allOnes 8 := by decide
  have mask2 : packed2 0xFFFFF0#24 = 0xF0#8 := by decide
  simp only [normalizeRow, packed0_and, packed1_and, packed2_and, mask0, mask1, mask2, BitVec.and_allOnes,
    BitVec.and_assoc, BitVec.and_self]

theorem decode_eq_of_normalizeRow_eq {row row' : Row} (h : normalizeRow row = normalizeRow row') :
    decode row = decode row' := by
  simp only [decode, h]

/-- Rows that differ in the padding bits only decode alike (R71). -/
theorem decode_eq_of_eq_upToPadding {row row' : Row} (h : row &&& 0xFFFFF0#24 = row' &&& 0xFFFFF0#24) :
    decode row = decode row' :=
  decode_eq_of_normalizeRow_eq <| by
    rw [← normalizeRow_clearPadding row, h, normalizeRow_clearPadding]

/-- No condition stops the machine: every step answers a next state (R172). -/
theorem exists_step_eq_next (s : State) : ∃ t, step s = .next t := by
  cases hr : (portsNow s).rst with
  | true => exact ⟨_, step_of_reset hr⟩
  | false =>
    cases hv : (portsNow s).inValid with
    | false => exact ⟨_, step_of_idle hr hv⟩
    | true => exact ⟨_, by rw [step_of_row hr hv, exec_eq_rowEdge, mapNext]⟩

/-- A step sees of `in_row` only the instruction it decodes to. -/
theorem step_presentNext_inRow_congr {p : Ports} {row : Row} (h : decode row = decode p.inRow) (s : State) :
    step (presentNext { p with inRow := row } s) = step (presentNext p s) := by
  obtain hr | hr := Bool.eq_false_or_eq_true p.rst
  · rw [step_of_reset (by exact hr), step_of_reset (by exact hr)]
    rfl
  obtain hv | hv := Bool.eq_false_or_eq_true p.inValid
  · rw [step_of_row (by exact hr) (by exact hv), step_of_row (by exact hr) (by exact hv),
      portsNow_presentNext, portsNow_presentNext, h, exec_eq_rowEdge, exec_eq_rowEdge]
    rfl
  · rw [step_of_idle (by exact hr) (by exact hv), step_of_idle (by exact hr) (by exact hv)]
    rfl

/-- Settles O6: the normalizer drops the padding before any field is extracted, and a step uses the row only
through its decoding. -/
theorem paddingBitsChangeNothing : Obligations.PaddingBitsChangeNothing := by
  intro p row s h
  have sameInstr : decode row = decode p.inRow := decode_eq_of_eq_upToPadding h
  obtain ⟨t, ht⟩ := exists_step_eq_next (presentNext p s)
  exact ⟨sameInstr, t, ht, (step_presentNext_inRow_congr sameInstr s).trans ht⟩

/-! ### The ports of the assembler's statements (R73) -/

@[simp] theorem rowPorts_batchStart (len : RowLen) (row : Row) (b : Bool) : (rowPorts len row b).batchStart = b := rfl

/-- Settles O45: the four cycles of the table are the ports as written, and each row statement hands its
suffix `.B` on to `rowPorts`. -/
theorem statementsDriveThePortsTheyName : Obligations.StatementsDriveThePortsTheyName := by
  refine ⟨?row, ?idle, ?bstart, ?reset, ?suffix⟩
  case row => intro b len row; rfl
  case idle => intro len row; rfl
  case bstart => intro len row; rfl
  case reset => intro valid len row b; rfl
  case suffix =>
    intro b cmd ch v k
    simp only [Statement.ports, rowPorts_batchStart, and_self]

end Sys2Proof.Proofs
end

section
/-! The statement of 40_length_gate.md: only a row of 20 bits passes the length gate. -/

namespace Sys2Proof.Proofs

open Sys2Proof.Machine

theorem lenOk_eq_false_iff_toNat (len : RowLen) : lenOk len = false ↔ len.toNat ≠ 20 := by
  rw [← Bool.not_eq_true, not_congr (lenOk_iff_toNat len)]

/-- ERR_LEN outranks every other rejection (R80, R169): the other two checks do not matter. -/
@[simp] theorem statusOf_false_left (csumOk cmdOk : Bool) : statusOf false csumOk cmdOk = .errLen := rfl

/-- The status of a row of another length is ERR_LEN, whatever bytes stand on the port (R80). -/
theorem rowResult_status_of_toNat_ne {len : RowLen} (h : len.toNat ≠ 20) (fb : FrameBytes) :
    (rowResult len fb).status = .errLen := by
  have hlen : lenOk len = false := (lenOk_eq_false_iff_toNat len).mpr h
  rw [rowResult, hlen, statusOf_false_left]

/-- A row edge at another length loads ERR_LEN and raises no record strobe (R80, R83). -/
theorem rowEdge_of_toNat_ne {s : State} (h : (portsNow s).inLen.toNat ≠ 20) (fb : FrameBytes) :
    (rowEdge fb s).rStatus = Status.errLen.code ∧ outRecord (rowEdge fb s) = false := by
  rw [rowEdge_rStatus, outRecord_rowEdge, rowResult_status_of_toNat_ne h]
  exact ⟨rfl, rfl⟩

/-- Settles O9: the gate compares the length with 20, and every instruction is a row edge, whose status a
failing gate decides alone. -/
theorem lengthGatePassesTwentyOnly : Obligations.LengthGatePassesTwentyOnly := by
  refine ⟨lenOk_iff_toNat, ?listed, ?rejected⟩
  case listed => decide
  case rejected =>
    intro i s h
    exact ⟨_, exec_eq_rowEdge i s, rowEdge_of_toNat_ne h _⟩

end Sys2Proof.Proofs
end

section
/-! The statement of 41_normalizer.md: the reflection of the packed bytes and the padding it drops. -/

namespace Sys2Proof.Proofs

theorem bitVec_and_xor_distrib_right {w : Nat} (x y z : BitVec w) : (x ^^^ y) &&& z = (x &&& z) ^^^ (y &&& z) :=
  BitVec.eq_of_getElem_eq fun i hi => by
    simp only [BitVec.getElem_and, BitVec.getElem_xor, Bool.and_xor_distrib_right]

/-- Clearing the padding undoes every change of the padding alone. -/
theorem xorPadding_clearPadding (row pad : Row) :
    (row ^^^ (pad &&& 0x00000F#24)) &&& 0xFFFFF0#24 = row &&& 0xFFFFF0#24 := by
  have disjoint : 0x00000F#24 &&& 0xFFFFF0#24 = 0#24 := by decide
  rw [bitVec_and_xor_distrib_right, BitVec.and_assoc, disjoint, BitVec.and_zero, BitVec.xor_zero]

/-- The padding bits reach none of the Frame Bytes (R88). -/
theorem normalizeRow_xorPadding (row pad : Row) :
    normalizeRow (row ^^^ (pad &&& 0x00000F#24)) = normalizeRow row := by
  rw [← normalizeRow_clearPadding, xorPadding_clearPadding, normalizeRow_clearPadding]

/-- Settles O8: the law of one reflected bit is `getLsbD_rev8`, and the padding is cleared before the
reflection. -/
theorem normalizerReflectsEachPackedByte : Obligations.NormalizerReflectsEachPackedByte := by
  refine ⟨getLsbD_rev8, ?bytes, ?padding, ?palindromes, ?exampleRow⟩
  case bytes => intro row; rfl
  case padding =>
    intro row pad
    exact congrArg FrameBytes.n2 (normalizeRow_xorPadding row pad)
  case palindromes => decide
  case exampleRow => decide

end Sys2Proof.Proofs
end

section
/-! The statement of 42_checksum.md on CSUM_CALC: the sum of the four nibbles modulo 16. -/

namespace Sys2Proof.Proofs

open Sys2Proof.Machine

/-- CSUM_CALC throws the carry away: the 4-bit result is the sum modulo 16 (R95). -/
theorem toNat_csumCalc (n0 n1 : Byte) : (csumCalc n0 n1).toNat = nibbleSum n0 n1 % 16 :=
  BitVec.toNat_ofNat _ _

/-- Four nibbles of at most 15 each (R95). -/
theorem nibbleSum_le (n0 n1 : Byte) : nibbleSum n0 n1 ≤ 60 := by
  have h0 : n0.toNat < 256 := n0.isLt
  have h1 : n1.toNat < 256 := n1.isLt
  rw [nibbleSum_eq]
  omega

/-- Settles O10: CSUM_CALC is `nibbleSum` modulo 16, and every instruction is a row edge, which loads the
checksum of the same two bytes it loads into `r_nb0` and `r_nb1`. -/
theorem checksumIsTheNibbleSumModuloSixteen : Obligations.ChecksumIsTheNibbleSumModuloSixteen := by
  refine ⟨?value, nibbleSum_le, by decide, by decide, by decide, by decide, by decide, by decide, by decide,
    by decide, by decide, by decide, ?loaded⟩
  case value =>
    intro n0 n1
    rw [toNat_csumCalc, nibbleSum_eq]
  case loaded =>
    intro i s
    exact ⟨_, exec_eq_rowEdge i s, by rw [rowEdge_rCsumCalc, rowEdge_rNb0, rowEdge_rNb1]⟩

end Sys2Proof.Proofs
end

section
/-! The statement of 43_field_extract.md: command, channel and value out of the Frame Bytes. -/

namespace Sys2Proof.Proofs

open Sys2Proof.Machine

/-- EXTRACT_COMMAND as a natural number (R105). -/
theorem toNat_commandOf (n0 : Byte) : (commandOf n0).toNat = n0.toNat / 16 := by
  rw [commandOf, toNat_hiNibble]

/-- EXTRACT_CHANNEL as a natural number: the complement of a nibble is its distance from 15 (R106). -/
theorem toNat_channelOf (n0 : Byte) : (channelOf n0).toNat = 15 - n0.toNat % 16 := by
  rw [channelOf, loNibble_not, BitVec.toNat_not, toNat_loNibble]

/-! ### Every channel and every value of a defined command can be fully valid (R70, R106, R107) -/

/-- The opcode condition of R70 asks about the command code alone: it is one of the five of R68. -/
theorem codeWellFormed_iff (i : Instr) : i.codeWellFormed = true ↔ i.code ∈ ([1, 2, 4, 5, 6] : List Nibble) := by
  cases i <;> simp [Instr.codeWellFormed, Instr.code]

theorem toNat_claimedCsum (c ch : Nibble) (v : Byte) : (Claims.csum c ch v).toNat = Claims.csumNat c ch v := by
  rw [Claims.csum, BitVec.toNat_ofNat, Claims.csumNat, Nat.mod_mod]

/-- A frame that carries the checksum of R97 meets the checksum condition, whatever its command code. -/
theorem checksumWellFormed_ofCode_claimedCsum (c ch : Nibble) (v : Byte) :
    (Instr.ofCode c ch v (Claims.csum c ch v)).checksumWellFormed = true := by
  rw [Instr.checksumWellFormed, ofCode_code, ofCode_channel, ofCode_value, ofCode_csum, toNat_claimedCsum,
    Claims.csumNat, beq_self_eq_true]

theorem fullyValid_iff (len : RowLen) (i : Instr) :
    i.fullyValid len = true ↔
      lengthWellFormed len = true ∧ i.checksumWellFormed = true ∧ i.codeWellFormed = true := by
  rw [Instr.fullyValid, Bool.and_eq_true, Bool.and_eq_true, and_assoc]

/-- Settles O13: the extractor's fields in natural numbers are nibble laws, every instruction is a row edge,
and neither the opcode condition nor the checksum condition of a frame limits its channel or value. -/
theorem extractorSplitsTheFrameBytes : Obligations.ExtractorSplitsTheFrameBytes := by
  refine ⟨fun n0 => ⟨toNat_commandOf n0, toNat_channelOf n0⟩, fun _ => rfl, by decide, by decide, by decide,
    by decide, by decide, by decide, by decide, ?loaded, ?valid⟩
  case loaded =>
    intro i s
    exact ⟨_, exec_eq_rowEdge i s, by rw [rowEdge_rCommand, rowEdge_rNb0], by rw [rowEdge_rChannel, rowEdge_rNb0],
      by rw [rowEdge_rValue, rowEdge_rNb1]⟩
  case valid =>
    intro c ch v hc
    have hcode : (Instr.ofCode c ch v (Claims.csum c ch v)).codeWellFormed = true := by
      rw [codeWellFormed_iff, ofCode_code]
      exact hc
    exact (fullyValid_iff _ _).mpr ⟨rfl, checksumWellFormed_ofCode_claimedCsum c ch v, hcode⟩

end Sys2Proof.Proofs
end

section
/-! One row edge in the terms of the rules: the checksum, status and batch values that the datapath computes from
the Frame Bytes of an instruction are the reference values of `Claims`. -/

namespace Sys2Proof.Proofs

open Sys2Proof.Machine

/-! ### The Frame Bytes of an instruction (R74, R97) -/

theorem toNat_joinNibbles (hi lo : Nibble) : (joinNibbles hi lo).toNat = 16 * hi.toNat + lo.toNat := by
  have high : hi.toNat = (joinNibbles hi lo).toNat / 16 := by rw [← toNat_hiNibble, hiNibble_joinNibbles]
  have low : lo.toNat = (joinNibbles hi lo).toNat % 16 := by rw [← toNat_loNibble, loNibble_joinNibbles]
  omega

theorem joinNibbles_complement_eq_byte0 (c ch : Nibble) : joinNibbles c (~~~ch) = Claims.byte0 c ch := by
  apply BitVec.eq_of_toNat_eq
  rw [toNat_joinNibbles, BitVec.toNat_not, Claims.byte0, BitVec.toNat_ofNat]
  omega

theorem joinNibbles_zero_left (k : Nibble) : joinNibbles 0 k = BitVec.ofNat 8 k.toNat := by
  apply BitVec.eq_of_toNat_eq
  have zero : (0 : Nibble).toNat = 0 := rfl
  rw [toNat_joinNibbles, BitVec.toNat_ofNat, zero]
  omega

/-- CSUM_CALC of a frame's bytes is the checksum in field terms (R97). -/
theorem csumCalc_joinNibbles_complement (c ch : Nibble) (v : Byte) :
    csumCalc (joinNibbles c (~~~ch)) v = Claims.csum c ch v := by
  apply BitVec.eq_of_toNat_eq
  rw [toNat_csumCalc, toNat_claimedCsum, nibbleSum, hiNibble_joinNibbles, loNibble_joinNibbles, BitVec.toNat_not,
    toNat_hiNibble, toNat_loNibble, Claims.csumNat]

/-- CSUM_CHECK of a frame's bytes compares the received nibble with the sum of R97. -/
theorem csumOk_frame (c ch : Nibble) (v : Byte) (k : Nibble) :
    csumOk (joinNibbles c (~~~ch)) v (joinNibbles 0 k) = (Claims.csumNat c ch v == k.toNat) := by
  rw [Bool.eq_iff_iff, csumOk_iff, csumCalc_joinNibbles_complement, csumRxOf, loNibble_joinNibbles,
    ← BitVec.toNat_inj, toNat_claimedCsum, beq_iff_eq]

/-! ### Status and batch flag (R150, R169) -/

theorem code_statusOf (len : RowLen) (agrees valid : Bool) :
    (statusOf (lenOk len) agrees valid).code = Claims.statusCode len agrees valid := by
  by_cases hlen : len.toNat = 20
  · rw [(lenOk_iff_toNat len).mpr hlen, Claims.statusCode, if_neg (not_not_intro hlen)]
    cases agrees <;> cases valid <;> rfl
  · rw [(lenOk_eq_false_iff_toNat len).mpr hlen, Claims.statusCode, if_pos hlen]
    rfl

theorem statusCode_eq_zero_iff (len : RowLen) (agrees valid : Bool) :
    Claims.statusCode len agrees valid = 0 ↔ len.toNat = 20 ∧ agrees = true ∧ valid = true := by
  rw [← code_statusOf, code_eq_zero_iff, statusOf_eq_ok_iff, lenOk_iff_toNat]

theorem batchNext_row (b start : Bool) (st : Status) :
    batchNext b start true st = Claims.batchAfterRow b start st.code := by
  have hit : (st == .ok) = decide (st.code = 0) := by
    rw [beq_eq_decide]
    exact decide_eq_decide.mpr (code_eq_zero_iff st).symm
  rw [batchNext_eq, Bool.true_and, hit, Claims.batchAfterRow]

/-! ### The classifier (R130, R131) -/

theorem vclass_delay (v : Byte) : vclass 4 v = decide (v.toNat ≠ 0) := by
  rw [Bool.eq_iff_iff, decide_eq_true_iff]
  exact bne_iff_ne.trans (not_congr BitVec.toNat_inj.symm)

theorem vclass_direction (v : Byte) : vclass 5 v = decide (v.toNat = 7) := by
  rw [Bool.eq_iff_iff, decide_eq_true_iff]
  exact beq_iff_eq.trans BitVec.toNat_inj.symm

theorem vclass_of_ne {render : Code3} (h4 : render ≠ 4) (h5 : render ≠ 5) (v : Byte) : vclass render v = false := by
  rw [vclass, if_neg h4, if_neg h5]

/-! ### The ROM's fields (R116, R117) -/

theorem romFields_memRead (c : Nibble) :
    (romValid (memRead c), romCategory (memRead c), romRender (memRead c)) = Claims.romEntry c := by
  revert c; decide +kernel

theorem romValid_memRead (c : Nibble) : romValid (memRead c) = (Claims.romEntry c).1 := by
  rw [← romFields_memRead]

theorem romCategory_memRead (c : Nibble) : romCategory (memRead c) = (Claims.romEntry c).2.1 := by
  rw [← romFields_memRead]

theorem romRender_memRead (c : Nibble) : romRender (memRead c) = (Claims.romEntry c).2.2 := by
  rw [← romFields_memRead]

/-- Only LIGHT_DELAY has render mode 4, and only FAN_DIR render mode 5. -/
theorem romEntry_render_ne {c : Nibble} (h5 : c ≠ 5) (h6 : c ≠ 6) :
    (Claims.romEntry c).2.2 ≠ 4 ∧ (Claims.romEntry c).2.2 ≠ 5 := by
  revert c; decide

/-- The classifier at the render mode of a code is the value bit of R123 and R124. -/
theorem vclass_romEntry (c : Nibble) (v : Byte) : vclass (Claims.romEntry c).2.2 v = Claims.valueBit c v := by
  by_cases h5 : c = 5
  · rw [h5]
    exact vclass_delay v
  by_cases h6 : c = 6
  · rw [h6]
    exact vclass_direction v
  · obtain ⟨noDelay, noDirection⟩ := romEntry_render_ne h5 h6
    rw [vclass_of_ne noDelay noDirection, Claims.valueBit, if_neg h5, if_neg h6]

theorem romEntry_valid_code (i : Instr) : (Claims.romEntry i.code).1 = i.codeWellFormed := by
  cases i <;> rfl

/-! ### The row edge of an instruction -/

/-- The datapath is the reference state of `Claims.afterFrame`, whose ROM fields and value bit are those of the
rules (R116, R123, R124). -/
theorem rowEdge_frameBytes (c ch : Nibble) (v : Byte) (k : Nibble) (s : State) :
    rowEdge (frameBytes c ch v k) s =
      Claims.afterFrame c ch v k (Claims.romEntry c).1 (Claims.romEntry c).2.1 (Claims.romEntry c).2.2
        (Claims.valueBit c v) s := by
  simp only [rowEdge, rowResult, loadResult, frameBytes, Claims.afterFrame, valueOf, commandOf,
    hiNibble_joinNibbles, channelOf_joinNibbles, romValid_memRead, romCategory_memRead, romRender_memRead,
    vclass_romEntry, batchNext_row, code_statusOf, csumOk_frame, csumCalc_joinNibbles_complement]
  rw [joinNibbles_complement_eq_byte0, joinNibbles_zero_left]

/-- What every instruction does, in the terms of the rules (R145, R148). -/
theorem exec_eq_afterFrame (i : Instr) (s : State) :
    exec i s = .next (Claims.afterFrame i.code i.channel i.value i.csum (Claims.romEntry i.code).1
      (Claims.romEntry i.code).2.1 (Claims.romEntry i.code).2.2 (Claims.valueBit i.code i.value) s) := by
  rw [exec_eq_rowEdge, rowEdge_frameBytes]

/-- The record strobe of R33 after a frame's edge: the status alone decides. -/
theorem outRecord_afterFrame (c ch : Nibble) (v : Byte) (k : Nibble) (valid : Bool) (category render : Code3)
    (vf : Bool) (s : State) :
    outRecord (Claims.afterFrame c ch v k valid category render vf s) = true ↔
      (portsNow s).inLen.toNat = 20 ∧ Claims.csumNat c ch v = k.toNat ∧ valid = true := by
  rw [← beq_iff_eq (a := Claims.csumNat c ch v), ← statusCode_eq_zero_iff, outRecord_eq_and_decide,
    Claims.afterFrame, Bool.true_and, decide_eq_true_iff]

/-- A frame's edge raises the record strobe exactly for a fully valid frame (R70, R147). -/
theorem outRecord_rowEdge_iff_fullyValid (i : Instr) (s : State) :
    outRecord (rowEdge (frameBytes i.code i.channel i.value i.csum) s) = true ↔
      i.fullyValid (portsNow s).inLen = true := by
  rw [rowEdge_frameBytes, outRecord_afterFrame, fullyValid_iff, romEntry_valid_code, lengthWellFormed, beq_iff_eq,
    Instr.checksumWellFormed, beq_iff_eq, Claims.csumNat]

end Sys2Proof.Proofs
end

section
/-! The statements of 44_command_rom.md: the ROM's five commands and eleven invalid codes, the classifier, and
the records. -/

namespace Sys2Proof.Proofs

open Sys2Proof.Machine

/-! ### The classifier -/

/-- Settles O15: the two comparisons as equations of naturals, and every instruction is a row edge, which loads
the value bit of the render code and value it loads. -/
theorem classifierIsTwoExactMatches : Obligations.ClassifierIsTwoExactMatches := by
  refine ⟨?comparisons, by decide, by decide, by decide, ?loaded⟩
  case comparisons =>
    intro render value
    by_cases h4 : render = 4
    · rw [h4, vclass_delay, if_pos rfl]
    by_cases h5 : render = 5
    · rw [h5, vclass_direction, if_neg (by decide), if_pos rfl]
    · rw [vclass_of_ne h4 h5, if_neg h4, if_neg h5]
  case loaded =>
    intro i s
    exact ⟨_, exec_eq_rowEdge i s, by rw [rowEdge_rVflag, rowEdge_rRender, rowEdge_rValue]⟩

/-! ### The value numeral (R138) -/

theorem digit_eq_digitChar {n : Nat} (h : n < 10) : digit n = n.digitChar := by
  revert n; decide

/-- The numeral of a byte, by its number of digits: each digit after the first splits off a division by 10. -/
theorem dec_eq_toString (v : Byte) : dec v = toString v.toNat := by
  have hv : v.toNat < 256 := v.isLt
  rw [dec, Nat.toString_eq_ofList_toDigits]
  split_ifs with h1 h2
  · rw [Nat.toDigits_of_lt_base h1, digit_eq_digitChar h1]
  · have tens : v.toNat / 10 < 10 := by omega
    rw [Nat.toDigits_of_base_le (by decide) (by omega), Nat.toDigits_of_lt_base tens,
      digit_eq_digitChar tens, digit_eq_digitChar (Nat.mod_lt _ (by decide))]
    rfl
  · have hundreds : v.toNat / 100 < 10 := by omega
    have split : v.toNat / 10 / 10 = v.toNat / 100 := Nat.div_div_eq_div_mul _ _ _
    rw [Nat.toDigits_of_base_le (by decide) (by omega), Nat.toDigits_of_base_le (by decide) (by omega), split,
      Nat.toDigits_of_lt_base hundreds, digit_eq_digitChar hundreds, digit_eq_digitChar (Nat.mod_lt _ (by decide)),
      digit_eq_digitChar (Nat.mod_lt _ (by decide))]
    rfl

/-- Settles O42: `dec` is the numeral for every byte, and the four examples are computed. -/
theorem valueNumeralIsDecimal : Obligations.ValueNumeralIsDecimal :=
  ⟨dec_eq_toString, by decide, by decide, by decide, by decide⟩

/-- Settles O44: the field list is written in the declared order. -/
theorem recordFieldsStandInTheDeclaredOrder : Obligations.RecordFieldsStandInTheDeclaredOrder := by
  intro r
  constructor <;> rfl

/-! ### The record after a row edge (R139) -/

/-- Without the record strobe there is no record. -/
theorem recordView_of_outRecord_eq_false {s : State} (h : outRecord s = false) (modelName deviceType : String) :
    recordView modelName deviceType s = .ok none := by
  have strobe : (outputs s).outRecord = false := h
  rw [recordView, recordOf, strobe]
  rfl

/-- With the record strobe the record is read from four registers, once the codes have their names. -/
theorem recordView_of_outRecord {s : State} {command value : String} (h : outRecord s = true)
    (hcommand : recordCommand s.rCategory = .ok command) (hvalue : renderStr s.rRender s.rValue s.rVflag = .ok value)
    (modelName deviceType : String) :
    recordView modelName deviceType s =
      .ok (some ⟨modelName, deviceType, s.rChannel.toNat, command, value, micName⟩) := by
  have strobe : (outputs s).outRecord = true := h
  have category : recordCommand (outputs s).outCategory = .ok command := hcommand
  have render : renderStr (outputs s).outRender (outputs s).outValue (outputs s).outVflag = .ok value := hvalue
  rw [recordView, recordOf, strobe, if_pos rfl, category, render]
  rfl

/-! ### The five commands -/

/-- A constructor's encodings carry its command code, reflected, in `in_row[19:16]` (R62, R70). -/
theorem encodesAs_of_code {mk : Nibble → Byte → Nibble → Instr} {c : Nibble} {bits : Row}
    (hcode : ∀ ch v k, (mk ch v k).code = c) (hbits : joinBytes (joinNibbles 0 (rev4 c)) 0 0 = bits) :
    Claims.EncodesAs mk bits := by
  intro ch v k
  rw [Laws.RowMatch.mask_encode, hcode, hbits]

/-- A command whose codes have their names records: the frame that carries the checksum of R97 passes both
checks, and the record reads back the fields that the edge has loaded. -/
theorem records_of_exec_eq_afterFrame {c : Nibble} {mk : Nibble → Byte → Nibble → Instr} {category render : Code3}
    {valueBit : Byte → Bool} {command : String} {value : Byte → String}
    (hexec : ∀ ch v k s, exec (mk ch v k) s =
      .next (Claims.afterFrame c ch v k true category render (valueBit v) s))
    (hcommand : recordCommand category = .ok command)
    (hvalue : ∀ v, renderStr render v (valueBit v) = .ok (value v)) :
    Claims.Records c mk command value := by
  intro ch v s modelName deviceType hlen
  have agrees : Claims.csumNat c ch v = (Claims.csum c ch v).toNat := (toNat_claimedCsum c ch v).symm
  have hlen20 : (portsNow s).inLen.toNat = 20 := by rw [hlen]; rfl
  have strobe := (outRecord_afterFrame c ch v _ true category render (valueBit v) s).mpr ⟨hlen20, agrees, rfl⟩
  have status : (Claims.afterFrame c ch v (Claims.csum c ch v) true category render (valueBit v) s).rStatus = 0 :=
    (statusCode_eq_zero_iff _ _ _).mpr ⟨hlen20, beq_iff_eq.mpr agrees, rfl⟩
  exact ⟨_, hexec ch v _ s, status, strobe, recordView_of_outRecord strobe hcommand (hvalue v) _ _⟩

theorem exec_fanStop (ch : Nibble) (v : Byte) (k : Nibble) (s : State) :
    exec (.fanStop ch v k) s = .next (Claims.afterFrame 1 ch v k true 1 1 false s) :=
  exec_eq_afterFrame (.fanStop ch v k) s

theorem exec_fanSpeed (ch : Nibble) (v : Byte) (k : Nibble) (s : State) :
    exec (.fanSpeed ch v k) s = .next (Claims.afterFrame 2 ch v k true 1 2 false s) :=
  exec_eq_afterFrame (.fanSpeed ch v k) s

theorem exec_lightLevel (ch : Nibble) (v : Byte) (k : Nibble) (s : State) :
    exec (.lightLevel ch v k) s = .next (Claims.afterFrame 4 ch v k true 2 3 false s) :=
  exec_eq_afterFrame (.lightLevel ch v k) s

theorem exec_lightDelay (ch : Nibble) (v : Byte) (k : Nibble) (s : State) :
    exec (.lightDelay ch v k) s = .next (Claims.afterFrame 5 ch v k true 3 4 (decide (v.toNat ≠ 0)) s) :=
  exec_eq_afterFrame (.lightDelay ch v k) s

theorem exec_fanDir (ch : Nibble) (v : Byte) (k : Nibble) (s : State) :
    exec (.fanDir ch v k) s = .next (Claims.afterFrame 6 ch v k true 4 5 (decide (v.toNat = 7)) s) :=
  exec_eq_afterFrame (.fanDir ch v k) s

/-- Settles O17: render mode 1 does not look at the value, so every value records as "stop". -/
theorem fanStopResult : Obligations.FanStopResult :=
  ⟨exec_fanStop, records_of_exec_eq_afterFrame exec_fanStop rfl fun _ => rfl,
    encodesAs_of_code (fun _ _ _ => rfl) (by decide), by decide, by decide, by decide⟩

/-- Settles O18: the value stands in the record as the decimal numeral. -/
theorem fanSpeedResult : Obligations.FanSpeedResult := by
  refine ⟨exec_fanSpeed, records_of_exec_eq_afterFrame exec_fanSpeed rfl ?speed,
    encodesAs_of_code (fun _ _ _ => rfl) (by decide), by decide, by decide, by decide⟩
  case speed =>
    intro v
    rw [← dec_eq_toString]
    rfl

/-- Settles O19: the value stands in the record as the decimal numeral, whatever its size. -/
theorem lightLevelResult : Obligations.LightLevelResult := by
  refine ⟨exec_lightLevel, records_of_exec_eq_afterFrame exec_lightLevel rfl ?percent,
    encodesAs_of_code (fun _ _ _ => rfl) (by decide), by decide, by decide, by decide⟩
  case percent =>
    intro v
    rw [← dec_eq_toString]
    rfl

/-- Settles O20: the value bit is the comparison with 0, and the record names its two cases. -/
theorem lightDelayResult : Obligations.LightDelayResult := by
  refine ⟨exec_lightDelay, records_of_exec_eq_afterFrame exec_lightDelay rfl ?offOn,
    encodesAs_of_code (fun _ _ _ => rfl) (by decide), by decide, by decide, by decide⟩
  case offOn =>
    intro v
    by_cases off : v.toNat = 0 <;> simp [renderStr, off]

/-- Settles O21: the value bit is the comparison with 7, and the record names its two cases. -/
theorem fanDirResult : Obligations.FanDirResult := by
  refine ⟨exec_fanDir, records_of_exec_eq_afterFrame exec_fanDir rfl ?direction,
    encodesAs_of_code (fun _ _ _ => rfl) (by decide), by decide, by decide, by decide⟩
  case direction =>
    intro v
    by_cases clockwise : v.toNat = 7 <;> simp [renderStr, clockwise]

/-! ### The eleven invalid codes (R125) -/

/-- Each constructor of the list is the one the decoder takes for its code. -/
theorem eq_ofCode_of_mem_invalidCodes {e : Nibble × (Nibble → Byte → Nibble → Instr)}
    (he : e ∈ Claims.invalidCodes) : e.2 = Instr.ofCode e.1 := by
  fin_cases he <;> rfl

theorem romEntry_of_mem_invalidCodes {e : Nibble × (Nibble → Byte → Nibble → Instr)}
    (he : e ∈ Claims.invalidCodes) : Claims.romEntry e.1 = (false, 0, 0) := by
  revert e; decide

/-- A code whose ROM word is all zero has validity, category, render mode and value bit 0. -/
theorem exec_ofCode_of_romEntry_invalid {c : Nibble} (h : Claims.romEntry c = (false, 0, 0)) (ch : Nibble) (v : Byte)
    (k : Nibble) (s : State) :
    exec (.ofCode c ch v k) s = .next (Claims.afterFrame c ch v k false 0 0 false s) := by
  have noValueBit : Claims.valueBit c v = false := by
    rw [← vclass_romEntry, h]
    rfl
  rw [exec_eq_afterFrame, ofCode_code, ofCode_channel, ofCode_value, ofCode_csum, noValueBit, h]

theorem outRecord_afterFrame_invalid (c ch : Nibble) (v : Byte) (k : Nibble) (category render : Code3) (vf : Bool)
    (s : State) : outRecord (Claims.afterFrame c ch v k false category render vf s) = false := by
  rw [← Bool.not_eq_true, outRecord_afterFrame]
  rintro ⟨-, -, valid⟩
  exact Bool.false_ne_true valid

/-- The command field of R62 alone, as a number: the reflected code times 2^16. -/
theorem joinBytes_commandField (n : Nibble) : joinBytes (joinNibbles 0 n) 0 0 = BitVec.ofNat 24 (n.toNat * 65536) := by
  revert n; decide +kernel

/-- Settles O22: the constructors of the list are the decoder's for their codes, and the ROM words of these codes
are zero, so the status is never OK. -/
theorem invalidCodesResult : Obligations.InvalidCodesResult := by
  have nextState : ∀ e ∈ Claims.invalidCodes, ∀ ch v k s,
      exec (e.2 ch v k) s = .next (Claims.afterFrame e.1 ch v k false 0 0 false s) := by
    intro e he ch v k s
    rw [eq_ofCode_of_mem_invalidCodes he]
    exact exec_ofCode_of_romEntry_invalid (romEntry_of_mem_invalidCodes he) ch v k s
  refine ⟨nextState, ?noRecord, ?encoding, by decide, by decide, by decide, by decide, by decide⟩
  case noRecord =>
    intro e he ch v k s
    have noStrobe := outRecord_afterFrame_invalid e.1 ch v k 0 0 false s
    exact ⟨_, nextState e he ch v k s, noStrobe, recordView_of_outRecord_eq_false noStrobe⟩
  case encoding =>
    intro e he ch v k
    rw [eq_ofCode_of_mem_invalidCodes he, Laws.RowMatch.mask_encode, ofCode_code, joinBytes_commandField]

/-! ### A row presented twice, and an idle cycle after it (R141) -/

/-- A defined code has a category and a render mode that records have (R116, R136, R137). -/
theorem romEntry_of_valid {c : Nibble} (h : (Claims.romEntry c).1 = true) :
    (Claims.romEntry c).2.1 ∈ ([1, 2, 3, 4] : List Code3) ∧
      (Claims.romEntry c).2.2 ∈ ([1, 2, 3, 4, 5] : List Code3) := by
  revert c; decide

theorem exists_recordCommand_eq_ok {category : Code3} (h : category ∈ ([1, 2, 3, 4] : List Code3)) :
    ∃ command, recordCommand category = .ok command := by
  fin_cases h <;> exact ⟨_, rfl⟩

theorem exists_renderStr_eq_ok {render : Code3} (h : render ∈ ([1, 2, 3, 4, 5] : List Code3)) (v : Byte) (f : Bool) :
    ∃ value, renderStr render v f = .ok value := by
  fin_cases h <;> exact ⟨_, rfl⟩

/-- A fully valid frame has one record, which every edge that takes the frame at this length shows. -/
theorem exists_record_of_fullyValid {i : Instr} {len : RowLen} (h : i.fullyValid len = true)
    (modelName deviceType : String) :
    ∃ r, ∀ s : State, (portsNow s).inLen = len →
      recordView modelName deviceType (rowEdge (frameBytes i.code i.channel i.value i.csum) s) = .ok (some r) := by
  obtain ⟨-, -, defined⟩ := (fullyValid_iff len i).mp h
  rw [← romEntry_valid_code] at defined
  obtain ⟨hcategory, hrender⟩ := romEntry_of_valid defined
  obtain ⟨command, hcommand⟩ := exists_recordCommand_eq_ok hcategory
  obtain ⟨value, hvalue⟩ := exists_renderStr_eq_ok hrender i.value (Claims.valueBit i.code i.value)
  refine ⟨⟨modelName, deviceType, i.channel.toNat, command, value, micName⟩, fun s hlen => ?_⟩
  have strobe := (outRecord_rowEdge_iff_fullyValid i s).mpr (hlen ▸ h)
  rw [rowEdge_frameBytes] at strobe ⊢
  exact recordView_of_outRecord strobe hcommand hvalue modelName deviceType

/-- The step of a fully valid row listed next shows the row's record. -/
theorem exists_step_recordView_eq_some {p : Ports} (hrst : p.rst = false) (hvalid : p.inValid = true)
    (hfully : (decode p.inRow).fullyValid p.inLen = true) (modelName deviceType : String) :
    ∃ r, ∀ (s : State) (rest : List Ports), s.inputs = p :: rest →
      ∃ t, step s = .next t ∧ t.inputs = rest ∧ recordView modelName deviceType t = .ok (some r) := by
  obtain ⟨r, hrecord⟩ := exists_record_of_fullyValid hfully modelName deviceType
  refine ⟨r, fun s rest hinputs => ?_⟩
  have ports : portsNow s = p := portsNow_of_inputs hinputs
  have hstep := step_of_row (s := s) (ports ▸ hrst) (ports ▸ hvalid)
  rw [ports, exec_eq_rowEdge, mapNext] at hstep
  exact ⟨_, hstep, congrArg List.tail hinputs, hrecord s (congrArg Ports.inLen ports)⟩

/-- The step of an idle cycle listed next has no record and holds the data registers (R155). -/
theorem exists_step_idle_holds {q : Ports} (hrst : q.rst = false) (hvalid : q.inValid = false) {s : State}
    {rest : List Ports} (hinputs : s.inputs = q :: rest) :
    ∃ t, step s = .next t ∧ outRecord t = false ∧ t.rValid = false ∧
      t = { s with rValid := false, rBatchOk := t.rBatchOk, inputs := rest, edge := t.edge } := by
  have ports : portsNow s = q := portsNow_of_inputs hinputs
  have inputsAfter : rest = (nextCycle (idleEdge s)).inputs := (congrArg List.tail hinputs).symm
  refine ⟨_, step_of_idle (ports ▸ hrst) (ports ▸ hvalid), rfl, rfl, ?_⟩
  rw [inputsAfter]
  rfl

/-- Settles O37: the record of a fully valid row is the same at every edge that takes it, and the idle edge has
none. -/
theorem repeatedRowRecordsTwiceAndIdleNever : Obligations.RepeatedRowRecordsTwiceAndIdleNever := by
  intro p q rest s modelName deviceType hinputs hrst hvalid hfully hqrst hqvalid
  obtain ⟨r, recordsRow⟩ := exists_step_recordView_eq_some hrst hvalid hfully modelName deviceType
  obtain ⟨t1, step1, inputs1, record1⟩ := recordsRow s _ hinputs
  obtain ⟨t2, step2, inputs2, record2⟩ := recordsRow t1 _ inputs1
  obtain ⟨t3, step3, noStrobe, noValid, held⟩ := exists_step_idle_holds hqrst hqvalid inputs2
  exact ⟨r, t1, t2, t3, step1, step2, step3, record1, record2,
    recordView_of_outRecord_eq_false noStrobe modelName deviceType, noValid, held⟩

end Sys2Proof.Proofs
end

section
/-! The statements of 45_row_pipeline.md: the clocked update, the result cycle of every row, and the batch flag. -/

namespace Sys2Proof.Proofs

open Sys2Proof.Machine

/-! ### The normalizer and the fields, bit by bit on the port (R87, R95, R105, R106) -/

/-- A reflected packed byte reads the port downwards from the byte's highest slot. -/
theorem rev8_extractLsb' (row : Row) (start : Nat) :
    rev8 (row.extractLsb' start 8) = BitVec.ofFnLE fun b : Fin 8 => row.getLsbD (start + 7 - b) :=
  BitVec.eq_of_getElem_eq fun b hb => by
    have mirrored : 7 - b < 8 := by omega
    have slot : start + (7 - b) = start + 7 - b := by omega
    rw [getElem_rev8 _ b hb, BitVec.getLsbD_eq_getElem mirrored, BitVec.getElem_extractLsb', slot,
      BitVec.getElem_ofFnLE]

theorem normalizeRow_n0 (row : Row) : (normalizeRow row).n0 = Claims.nb0 row := rev8_extractLsb' row 16

theorem normalizeRow_n1 (row : Row) : (normalizeRow row).n1 = Claims.nb1 row := rev8_extractLsb' row 8

/-- The mask of R88 keeps the slots that reflect into bits 3:0. -/
theorem getLsbD_paddingMask : ∀ b < 8, (0xF0#8).getLsbD (7 - b) = decide (b < 4) := by decide

theorem normalizeRow_n2 (row : Row) : (normalizeRow row).n2 = Claims.nb2 row :=
  BitVec.eq_of_getElem_eq fun b hb => by
    have mirrored : 7 - b < 8 := by omega
    rw [normalizeRow, getElem_rev8 _ b hb, BitVec.getLsbD_and, getLsbD_paddingMask b hb,
      BitVec.getLsbD_eq_getElem mirrored, getElem_packed2, Claims.nb2, BitVec.getElem_ofFnLE, Bool.and_comm]

theorem normalizeRow_eq (row : Row) : normalizeRow row = ⟨Claims.nb0 row, Claims.nb1 row, Claims.nb2 row⟩ := by
  rw [← normalizeRow_n0, ← normalizeRow_n1, ← normalizeRow_n2]

theorem csumCalc_eq_ofNat (n0 n1 : Byte) : csumCalc n0 n1 = BitVec.ofNat 4 (Claims.csumOfBytes n0 n1) := by
  apply BitVec.eq_of_toNat_eq
  rw [toNat_csumCalc, nibbleSum_eq, BitVec.toNat_ofNat, Claims.csumOfBytes, Nat.mod_mod]

theorem csumOk_eq_beq (n0 n1 n2 : Byte) : csumOk n0 n1 n2 = (Claims.csumOfBytes n0 n1 == n2.toNat % 16) := by
  rw [Bool.eq_iff_iff, csumOk_iff, beq_iff_eq, ← BitVec.toNat_inj, toNat_csumCalc, nibbleSum_eq, csumRxOf,
    toNat_loNibble, Claims.csumOfBytes]

theorem commandOf_eq_ofNat (n0 : Byte) : commandOf n0 = BitVec.ofNat 4 (n0.toNat / 16) := by
  rw [← toNat_commandOf, BitVec.ofNat_toNat, BitVec.setWidth_eq]

theorem channelOf_eq_ofNat (n0 : Byte) : channelOf n0 = BitVec.ofNat 4 (15 - n0.toNat % 16) := by
  rw [← toNat_channelOf, BitVec.ofNat_toNat, BitVec.setWidth_eq]

/-! ### The clocked update (R145, R148, R150) -/

/-- A step that takes a row is the row edge of its normalized bytes. -/
theorem step_eq_rowEdge {s : State} (hrst : (portsNow s).rst = false) (hvalid : (portsNow s).inValid = true) :
    step s = .next (nextCycle (rowEdge (normalizeRow (portsNow s).inRow) s)) := by
  rw [step_of_row hrst hvalid, exec_decode, mapNext]

theorem rowEdge_normalizeRow_eq_afterRow (s : State) :
    rowEdge (normalizeRow (portsNow s).inRow) s = Claims.afterRow (portsNow s) s := by
  simp only [normalizeRow_eq, rowEdge, rowResult, loadResult, Claims.afterRow, valueOf, commandOf_eq_ofNat,
    channelOf_eq_ofNat, romValid_memRead, romCategory_memRead, romRender_memRead, vclass_romEntry, batchNext_row,
    code_statusOf, csumOk_eq_beq, csumCalc_eq_ofNat]

theorem idleEdge_eq (s : State) :
    idleEdge s = { s with rValid := false, rBatchOk := !(portsNow s).batchStart && s.rBatchOk } := by
  rw [idleEdge, batchNext_idle]

/-- Settles O26: one equation for each kind of edge of R148; the row's is the datapath's, field by field. -/
theorem stepIsTheClockedUpdate : Obligations.StepIsTheClockedUpdate := by
  intro s
  rw [Claims.clocked]
  split_ifs with hrst hvalid
  · exact step_of_reset hrst
  · rw [step_eq_rowEdge (Bool.eq_false_of_not_eq_true hrst) hvalid, rowEdge_normalizeRow_eq_afterRow]
    rfl
  · rw [step_of_idle (Bool.eq_false_of_not_eq_true hrst) (Bool.eq_false_of_not_eq_true hvalid), idleEdge_eq]
    rfl

/-! ### The status of a row on the port (R70, R147, R169) -/

theorem code_datapath_status (len : RowLen) (row : Row) :
    (datapath len row).status.code =
      Claims.statusCode len (decode row).checksumWellFormed (decode row).codeWellFormed := by
  simp only [datapath, ← frameBytes_decode row, rowResult, frameBytes, code_statusOf, csumOk_frame, commandOf,
    hiNibble_joinNibbles, romValid_memRead, romEntry_valid_code]
  rfl

theorem datapath_status_eq_ok_iff (len : RowLen) (row : Row) :
    (datapath len row).status = .ok ↔ (decode row).fullyValid len = true := by
  rw [← code_eq_zero_iff, code_datapath_status, statusCode_eq_zero_iff, fullyValid_iff, lengthWellFormed, beq_iff_eq]

theorem hit_iff (p : Ports) :
    p.hit = true ↔ p.rst = false ∧ p.inValid = true ∧ (decode p.inRow).fullyValid p.inLen = true := by
  rw [Ports.hit, Bool.and_eq_true, Bool.and_eq_true, Bool.not_eq_true', beq_iff_eq, datapath_status_eq_ok_iff,
    and_assoc]

/-! ### The result cycle of every edge (R149, R151) -/

theorem showsResultOf_idleEdge {s : State} (hvalid : (portsNow s).inValid = false) :
    Claims.ShowsResultOf (portsNow s) (outputs (nextCycle (idleEdge s))) := by
  have noRecord : false = ((portsNow s).inValid && (decode (portsNow s).inRow).fullyValid (portsNow s).inLen) := by
    rw [hvalid, Bool.false_and]
  exact ⟨hvalid.symm, noRecord, fun presented => absurd (hvalid.symm.trans presented) Bool.false_ne_true⟩

theorem showsResultOf_rowEdge {s : State} (hvalid : (portsNow s).inValid = true) :
    Claims.ShowsResultOf (portsNow s) (outputs (nextCycle (rowEdge (normalizeRow (portsNow s).inRow) s))) := by
  have strobe : outRecord (rowEdge (normalizeRow (portsNow s).inRow) s) =
      ((portsNow s).inValid && (decode (portsNow s).inRow).fullyValid (portsNow s).inLen) := by
    rw [hvalid, Bool.true_and, outRecord_rowEdge, Bool.eq_iff_iff, beq_iff_eq]
    exact datapath_status_eq_ok_iff _ _
  exact ⟨hvalid.symm, strobe, fun _ => ⟨normalizeRow_n0 _, normalizeRow_n1 _, normalizeRow_n2 _,
    (ofCode_code _ _ _ _).symm, (ofCode_channel _ _ _ _).symm, (ofCode_value _ _ _ _).symm,
    code_datapath_status _ _⟩⟩

theorem exists_step_showsResultOf {s : State} (hrst : (portsNow s).rst = false) :
    ∃ t, step s = .next t ∧ Claims.ShowsResultOf (portsNow s) (outputs t) := by
  cases hvalid : (portsNow s).inValid with
  | false => exact ⟨_, step_of_idle hrst hvalid, showsResultOf_idleEdge hvalid⟩
  | true => exact ⟨_, step_eq_rowEdge hrst hvalid, showsResultOf_rowEdge hvalid⟩

theorem outputsTrace_succ_of_next {n : Nat} {s t : State} (h : step s = .next t) :
    outputsTrace (n + 1) s = outputs t :: outputsTrace n t := by
  rw [outputsTrace, h]

/-- Settles O34, by induction on the list of edges: each edge shows its own row, whatever state the edges before
it have left. -/
theorem everyRowHasItsResultCycleInOrder : Obligations.EveryRowHasItsResultCycleInOrder := by
  intro ps
  induction ps with
  | nil =>
    intro rest s _ _
    exact .nil
  | cons p ps ih =>
    intro rest s hinputs hrst
    obtain ⟨hp, hps⟩ := List.forall_mem_cons.mp hrst
    have ports : portsNow s = p := portsNow_of_inputs hinputs
    obtain ⟨t, hstep, shown⟩ := exists_step_showsResultOf (s := s) (ports ▸ hp)
    have inputsAfter : t.inputs = ps ++ rest := (inputs_of_step hstep).trans (congrArg List.tail hinputs)
    rw [List.length_cons, outputsTrace_succ_of_next hstep]
    exact .cons (ports ▸ shown) (ih rest t inputsAfter hps)

/-! ### The batch flag (R150, R152) -/

/-- What one edge does to the batch flag: a recorded row sets it; without a row that records it stays, unless
reset or a batch start clears it. -/
theorem rBatchOk_of_step {s t : State} (h : step s = .next t) :
    t.rBatchOk = ((portsNow s).hit || (!(portsNow s).rst && !(portsNow s).batchStart && s.rBatchOk)) := by
  obtain ⟨hrst, rfl⟩ | ⟨hrst, hvalid, rfl⟩ | ⟨hrst, hvalid, i, rfl, rfl⟩ := step_cases h
  · simp [Ports.hit, hrst]
  · simp [Ports.hit, hrst, hvalid]
  · rw [nextCycle_rBatchOk, rowEdge_rBatchOk, batchNext_eq, frameBytes_decode, Ports.hit, datapath, hrst, hvalid]
    cases (portsNow s).batchStart <;> simp [Bool.or_comm]

/-- The hit of R150 asks for status code 0. -/
theorem hit_eq (p : Ports) :
    p.hit = (!p.rst && (p.inValid && ((datapath p.inLen p.inRow).status.code == 0))) := by
  have status : ((datapath p.inLen p.inRow).status == .ok) = ((datapath p.inLen p.inRow).status.code == 0) := by
    rw [Bool.eq_iff_iff, beq_iff_eq, beq_iff_eq, code_eq_zero_iff]
  rw [Ports.hit, status, Bool.and_assoc]

/-- Settles O29: the chain of R150, reset before batch start before the hit. -/
theorem batchFlagAfterEveryEdge : Obligations.BatchFlagAfterEveryEdge := by
  intro s
  obtain ⟨t, hstep⟩ := exists_step_eq_next s
  refine ⟨t, hstep, ?_⟩
  rw [rBatchOk_of_step hstep, hit_eq]
  dsimp only
  split_ifs with hrst hstart
  · simp [hrst]
  · simp [hrst, hstart]
  · simp [hrst, hstart, Bool.or_comm]

/-- Over edges that open no batch the flag gathers their hits. -/
theorem exists_run_rBatchOk_eq_or_any (ps : List Ports) {rest : List Ports} {s : State}
    (hinputs : s.inputs = ps ++ rest) (hcontinue : ∀ q ∈ ps, q.rst = false ∧ q.batchStart = false) :
    ∃ t, Sys2Proof.core.run ps.length s = .next t ∧ t.inputs = rest ∧
      t.rBatchOk = (s.rBatchOk || ps.any Ports.hit) := by
  induction ps generalizing s with
  | nil => exact ⟨s, run_zero s, hinputs, (Bool.or_false _).symm⟩
  | cons p ps ih =>
    obtain ⟨⟨hrst, hstart⟩, hps⟩ := List.forall_mem_cons.mp hcontinue
    have ports : portsNow s = p := portsNow_of_inputs hinputs
    obtain ⟨t, hstep⟩ := exists_step_eq_next s
    have flag : t.rBatchOk = (s.rBatchOk || p.hit) := by
      rw [rBatchOk_of_step hstep, ports, hrst, hstart, Bool.or_comm]
      rfl
    obtain ⟨u, hrun, hrest, hflag⟩ := ih ((inputs_of_step hstep).trans (congrArg List.tail hinputs)) hps
    refine ⟨u, (run_succ_of_next hstep).trans hrun, hrest, ?_⟩
    rw [hflag, flag, List.any_cons, Bool.or_assoc]

/-- An edge that opens a batch forgets the flag (R150). -/
theorem rBatchOk_of_step_opening {s t : State} (h : step s = .next t)
    (hopen : (portsNow s).rst = true ∨ (portsNow s).batchStart = true) : t.rBatchOk = (portsNow s).hit := by
  rw [rBatchOk_of_step h]
  obtain hrst | hstart := hopen
  · simp [hrst]
  · simp [hstart]

/-- Settles O35: the opening edge leaves its own hit, and the edges after it gather theirs. -/
theorem batchSucceedsExactlyWhenARowRecords : Obligations.BatchSucceedsExactlyWhenARowRecords := by
  intro p ps rest s hinputs hopen hps
  have ports : portsNow s = p := portsNow_of_inputs hinputs
  obtain ⟨t, hstep⟩ := exists_step_eq_next s
  have flag : t.rBatchOk = p.hit := by
    rw [rBatchOk_of_step_opening hstep (ports.symm ▸ hopen), ports]
  obtain ⟨u, hrun, hrest, hflag⟩ :=
    exists_run_rBatchOk_eq_or_any ps ((inputs_of_step hstep).trans (congrArg List.tail hinputs)) hps
  refine ⟨u, (run_succ_of_next hstep).trans hrun, hrest, ?_⟩
  rw [hflag, flag, ← List.any_cons, List.any_eq_true]
  exact exists_congr fun q => and_congr_right fun _ => hit_iff q

end Sys2Proof.Proofs
end

section
/-! The statements of 60_exceptions.md: the priority of the rejections, and that no condition stops the machine. -/

namespace Sys2Proof.Proofs

open Sys2Proof.Machine

/-! ### The priority of the rejections (R169) -/

/-- ERR_CSUM outranks ERR_CMD: behind a passing length gate the command check does not matter. -/
@[simp] theorem statusOf_true_false (cmdOk : Bool) : statusOf true false cmdOk = .errCsum := rfl

/-- Settles O16: a failing stage decides the status whatever the later stages find. -/
theorem earliestFailingStageGivesTheStatus : Obligations.EarliestFailingStageGivesTheStatus := by
  refine ⟨?length, ?checksum, ?command, ?ok⟩
  case length => exact fun csumOk cmdOk => congrArg Status.code (statusOf_false_left csumOk cmdOk)
  case checksum => exact fun cmdOk => congrArg Status.code (statusOf_true_false cmdOk)
  case command => rfl
  case ok => exact (code_eq_zero_iff _).mpr ((statusOf_eq_ok_iff true true true).mpr ⟨rfl, rfl, rfl⟩)

/-! ### Nothing stops the machine (R172) -/

/-- Every number of edges runs through, since every single step does. -/
theorem exists_run_eq_next (n : Nat) (s : State) : ∃ t, Sys2Proof.core.run n s = .next t := by
  induction n generalizing s with
  | zero => exact ⟨s, run_zero s⟩
  | succ n ih =>
    obtain ⟨t, hstep⟩ := exists_step_eq_next s
    obtain ⟨u, hrun⟩ := ih t
    exact ⟨u, (run_succ_of_next hstep).trans hrun⟩

/-- The outputs of a row edge depend on the Frame Bytes and the length alone, the batch flag apart (R145, R154). -/
theorem outputs_rowEdge_congr {s s' : State} (hlen : (portsNow s).inLen = (portsNow s').inLen) (fb : FrameBytes) :
    outputs (rowEdge fb s) = { outputs (rowEdge fb s') with outBatchOk := (rowEdge fb s).rBatchOk } := by
  simp only [outputs, outRecord_rowEdge, rowEdge_rValid, rowEdge_rStatus, rowEdge_rNb0, rowEdge_rNb1, rowEdge_rNb2,
    rowEdge_rCsumCalc, rowEdge_rCommand, rowEdge_rChannel, rowEdge_rValue, rowEdge_rCategory, rowEdge_rRender,
    rowEdge_rVflag, hlen]

/-- Presenting a row in any state is the row edge of the row's own bytes. -/
theorem step_presentNext_of_row {p : Ports} (hrst : p.rst = false) (hvalid : p.inValid = true) (s : State) :
    step (presentNext p s) = .next (nextCycle (rowEdge (normalizeRow p.inRow) (presentNext p s))) :=
  step_eq_rowEdge (s := presentNext p s) hrst hvalid

/-- Settles O31: every run goes through, and the row presented after it meets the same ports as after reset, on
which alone its outputs depend. -/
theorem nothingStopsTheMachine : Obligations.NothingStopsTheMachine := by
  intro n s
  obtain ⟨t, hrun⟩ := exists_run_eq_next n s
  refine ⟨t, hrun, fun p hrst hvalid => ?_⟩
  have sameLength : (portsNow (presentNext p t)).inLen = (portsNow (presentNext p State.reset)).inLen := rfl
  exact ⟨_, _, step_presentNext_of_row hrst hvalid t, step_presentNext_of_row hrst hvalid State.reset,
    outputs_rowEdge_congr sameLength _⟩

end Sys2Proof.Proofs
end

section
/-! The statement of 70_reset_and_hazards.md: a reset edge outranks every other input. -/

namespace Sys2Proof.Proofs

open Sys2Proof.Machine

/-- After a reset edge nothing of the state before it is left but the inputs still to come and the count of
edges (R185). -/
theorem nextCycle_resetEdge (s : State) :
    nextCycle (resetEdge s) = { State.reset with inputs := s.inputs.tail, edge := s.edge + 1 } := rfl

/-- Settles O27: with `rst = 1` the step is the reset edge, which reads no other port. -/
theorem resetOutranksEveryOtherInput : Obligations.ResetOutranksEveryOtherInput := by
  intro s hrst
  rw [step_of_reset hrst, nextCycle_resetEdge]

end Sys2Proof.Proofs
end

section
/-! The round trips between instructions and rows (30_encoding.md R62, R71, R74), the opcode table over all rows
(R68 to R72), and the frame pseudo-instructions (R74). -/

namespace Sys2Proof.Proofs

open Sys2Proof.Machine

/-! ### Decoding and encoding are inverse up to the padding -/

/-- The frame of R74 decodes to the constructor of its code, with the operands it was built from. -/
theorem decode_enc (c ch : Nibble) (v : Byte) (k : Nibble) : decode (enc c ch v k) = Instr.ofCode c ch v k := by
  simp only [decode, normalizeRow_enc, frameBytes, commandOf, valueOf, csumRxOf, hiNibble_joinNibbles,
    loNibble_joinNibbles, channelOf_joinNibbles]

/-- Settles O1: an encoding is the frame of the instruction's own code and operands. -/
theorem decodeOfEncodeIsTheInstruction : Obligations.DecodeOfEncodeIsTheInstruction := by
  intro i
  rw [encode, decode_enc, ofCode_fields]

/-- Encoding reflects the Frame Bytes back (R74), and those of a decoded row are the normalizer's. -/
theorem encode_decode (row : Row) :
    encode (decode row) =
      joinBytes (rev8 (normalizeRow row).n0) (rev8 (normalizeRow row).n1) (rev8 (normalizeRow row).n2) := by
  rw [encode, enc, frameBytes_decode]

/-- Clearing the padding of a row touches the packed byte P2 alone (R71, R88). -/
theorem joinBytes_clearPadding (row : Row) :
    joinBytes (packed0 row) (packed1 row) (packed2 row &&& 0xF0#8) = row &&& 0xFFFFF0#24 := by
  have mask0 : packed0 0xFFFFF0#24 = BitVec.allOnes 8 := by decide
  have mask1 : packed1 0xFFFFF0#24 = BitVec.allOnes 8 := by decide
  have mask2 : packed2 0xFFFFF0#24 = 0xF0#8 := by decide
  rw [← joinBytes_packed (row &&& 0xFFFFF0#24), packed0_and, packed1_and, packed2_and, mask0, mask1, mask2,
    BitVec.and_allOnes, BitVec.and_allOnes]

/-- Settles O2: the two reflections cancel, which leaves the mask that the normalizer puts on P2. -/
theorem encodeOfDecodeClearsThePaddingOnly : Obligations.EncodeOfDecodeClearsThePaddingOnly := by
  intro row
  simp only [encode_decode, normalizeRow, rev8_rev8, joinBytes_clearPadding]

/-! ### The opcode table over all rows (R68 to R72) -/

/-- Every pattern of the table looks at the command field alone. -/
theorem mask_of_mem_opcodeTable {r : OpcodeRow} (h : r ∈ opcodeTable) : r.mask = 0x0F0000 := by
  revert r; decide

/-- A row hits the patterns that the encoding of its instruction hits: the padding is in no pattern. -/
theorem hits_encode_decode {r : OpcodeRow} (h : r ∈ opcodeTable) (row : Row) :
    r.hits (encode (decode row)) = r.hits row := by
  have inCommandField : 0xFFFFF0#24 &&& (0x0F0000 : Row) = 0x0F0000 := by decide
  rw [OpcodeRow.hits, OpcodeRow.hits, mask_of_mem_opcodeTable h, encodeOfDecodeClearsThePaddingOnly,
    BitVec.and_assoc, inCommandField]

theorem filter_hits_eq (row : Row) :
    opcodeTable.filter (fun r => r.hits row) = opcodeTable.filter (fun r => r.code == (decode row).code) := by
  rw [← Laws.RowMatch.hits_eq]
  exact List.filter_congr fun r hr => (hits_encode_decode hr row).symm

/-- The table has one row for the code of each constructor, with the constructor's mnemonic and validity. -/
theorem exists_opcodeTable_row (i : Instr) :
    ∃ r, opcodeTable.filter (fun r => r.code == i.code) = [r] ∧
      r.code = i.code ∧ r.mnemonic = i.mnemonic ∧ r.valid = i.codeWellFormed := by
  cases i <;> exact ⟨_, rfl, rfl, rfl, rfl⟩

/-- Settles O3: a row's hits are the table rows of its instruction's code, of which there is one. -/
theorem everyRowMatchesExactlyItsOpcodeTableRow : Obligations.EveryRowMatchesExactlyItsOpcodeTableRow := by
  intro row
  obtain ⟨r, hits, hcode, hmnemonic, hvalid⟩ := exists_opcodeTable_row (decode row)
  refine ⟨r, (filter_hits_eq row).trans hits, hcode, hmnemonic, hvalid, ?_⟩
  rw [hvalid, hcode]
  exact codeWellFormed_iff _

/-! ### The frame pseudo-instructions (R74) -/

/-- The checksum that FRAME computes is the one of R97. -/
theorem frameCsum_eq (c ch : Nibble) (v : Byte) : frameCsum c ch v = Claims.csum c ch v :=
  csumCalc_joinNibbles_complement c ch v

/-- FRAME presents the frame that carries the checksum of R97. -/
theorem decode_frameRow (c ch : Nibble) (v : Byte) :
    decode (frameRow c ch v) = Instr.ofCode c ch v (Claims.csum c ch v) := by
  rw [frameRow, decode_enc, frameCsum_eq]

/-- The frames of R74 have padding 0, since they are encodings. -/
theorem enc_and_padding (c ch : Nibble) (v : Byte) (k : Nibble) : enc c ch v k &&& 0x00000F = 0 := by
  have disjoint : 0xFFFFF0#24 &&& (0x00000F : Row) = 0 := by decide
  have cleared : enc c ch v k &&& 0xFFFFF0#24 = enc c ch v k := by
    rw [← encodeOfDecodeClearsThePaddingOnly, decode_enc, encode, ofCode_code, ofCode_channel, ofCode_value,
      ofCode_csum]
  rw [← cleared, BitVec.and_assoc, disjoint]
  exact BitVec.and_zero

/-- Settles O46: FRAME and FRAME_K present frames of R74, which decode to their operands. -/
theorem pseudoInstructionsAssembleTheirFrames : Obligations.PseudoInstructionsAssembleTheirFrames := by
  refine ⟨?frame, ?frameK, fun _ _ _ => ⟨rfl, rfl, rfl, rfl, rfl⟩, by decide⟩
  case frame =>
    intro b cmd ch v
    refine ⟨frameRow cmd ch v, rfl, decode_frameRow cmd ch v, enc_and_padding _ _ _ _, ?_⟩
    rw [decode_frameRow]
    exact checksumWellFormed_ofCode_claimedCsum cmd ch v
  case frameK =>
    intro b cmd ch v k
    exact ⟨enc cmd ch v k, rfl, decode_enc cmd ch v k, enc_and_padding cmd ch v k⟩

/-! ### Test words, and the byte decoder -/

/-- Settles O4: ten closed words, which the decoder is evaluated on. -/
theorem wordsOfTheTestVectorsDecode : Obligations.WordsOfTheTestVectorsDecode := by
  unfold Obligations.WordsOfTheTestVectorsDecode
  decide

/-- Settles O7: the three packed bytes of a row join to the row, and any other list of bytes misses the one
pattern of the decoder. -/
theorem byteDecoderTakesThreeBytesOnly : Obligations.ByteDecoderTakesThreeBytesOnly := by
  refine ⟨?three, ?other⟩
  case three =>
    intro row
    rw [decodeBytes, joinBytes_packed]
  case other =>
    intro bytes hlength
    match bytes with
    | [] => rfl
    | [_] => rfl
    | [_, _] => rfl
    | [_, _, _] => exact absurd rfl hlength
    | _ :: _ :: _ :: _ :: _ => rfl

end Sys2Proof.Proofs
end

section
/-! Each transmitted bit of a row in the fields (30_encoding.md R61, R62, 43_field_extract.md R110), and what a
single wrong bit does to the checksum (42_checksum.md R96). -/

namespace Sys2Proof.Proofs

open Sys2Proof.Machine

/-! ### The wire layout of the fields -/

theorem getLsbD_hiNibble (b : Byte) {i : Nat} (h : i < 4) : (hiNibble b).getLsbD i = b.getLsbD (4 + i) := by
  rw [BitVec.getLsbD_eq_getElem h, getElem_hiNibble b i h]

theorem getLsbD_loNibble (b : Byte) {i : Nat} (h : i < 4) : (loNibble b).getLsbD i = b.getLsbD i := by
  rw [BitVec.getLsbD_eq_getElem h, getElem_loNibble b i h]

/-- Bit `i` of N0 is transmitted bit `t_i` (R87). -/
theorem getLsbD_nb0 (row : Row) {i : Nat} (h : i < 8) : (Claims.nb0 row).getLsbD i = transmittedBit row i := by
  rw [BitVec.getLsbD_eq_getElem h, Claims.nb0, BitVec.getElem_ofFnLE, transmittedBit]

/-- Bit `i` of N1 is transmitted bit `t_(8+i)` (R87). -/
theorem getLsbD_nb1 (row : Row) {i : Nat} (h : i < 8) :
    (Claims.nb1 row).getLsbD i = transmittedBit row (8 + i) := by
  rw [BitVec.getLsbD_eq_getElem h, Claims.nb1, BitVec.getElem_ofFnLE, transmittedBit, Nat.sub_add_eq]

/-- Bit `i` of N2, below the padding, is transmitted bit `t_(16+i)` (R87). -/
theorem getLsbD_nb2 (row : Row) {i : Nat} (h : i < 4) :
    (Claims.nb2 row).getLsbD i = transmittedBit row (16 + i) := by
  have h8 : i < 8 := by omega
  rw [BitVec.getLsbD_eq_getElem h8, Claims.nb2, BitVec.getElem_ofFnLE, decide_eq_true h, Bool.true_and,
    transmittedBit, Nat.sub_add_eq]

theorem getLsbD_channelOf_nb0 (row : Row) {i : Nat} (h : i < 4) :
    (channelOf (Claims.nb0 row)).getLsbD i = !transmittedBit row i := by
  have h8 : i < 8 := by omega
  rw [channelOf, getLsbD_loNibble _ h, BitVec.getLsbD_not, decide_eq_true h8, Bool.true_and, getLsbD_nb0 row h8]

theorem getLsbD_commandOf_nb0 (row : Row) {i : Nat} (h : i < 4) :
    (commandOf (Claims.nb0 row)).getLsbD i = transmittedBit row (4 + i) := by
  rw [commandOf, getLsbD_hiNibble _ h, getLsbD_nb0 row (by omega)]

theorem getLsbD_csumRxOf_nb2 (row : Row) {i : Nat} (h : i < 4) :
    (csumRxOf (Claims.nb2 row)).getLsbD i = transmittedBit row (16 + i) := by
  rw [csumRxOf, getLsbD_loNibble _ h, getLsbD_nb2 row h]

/-- The decoder extracts the four fields from the bytes of R87. -/
theorem decode_eq_ofCode (row : Row) :
    decode row = .ofCode (commandOf (Claims.nb0 row)) (channelOf (Claims.nb0 row)) (Claims.nb1 row)
      (csumRxOf (Claims.nb2 row)) := by
  simp only [decode, normalizeRow_eq, valueOf]

/-- Settles O5: the wire places are those of the Frame Bytes, and the port holds `t_i` at `in_row[23-i]`. -/
theorem fieldsFollowTheWireLayout : Obligations.FieldsFollowTheWireLayout := by
  intro row
  have nibbles : ∀ i < 4, (decode row).channel.getLsbD i = !transmittedBit row i ∧
      (decode row).code.getLsbD i = transmittedBit row (4 + i) ∧
      (decode row).csum.getLsbD i = transmittedBit row (16 + i) := by
    intro i hi
    rw [decode_eq_ofCode, ofCode_channel, ofCode_code, ofCode_csum]
    exact ⟨getLsbD_channelOf_nb0 row hi, getLsbD_commandOf_nb0 row hi, getLsbD_csumRxOf_nb2 row hi⟩
  have value : ∀ i < 8, (decode row).value.getLsbD i = transmittedBit row (8 + i) := by
    intro i hi
    rw [decode_eq_ofCode, ofCode_value]
    exact getLsbD_nb1 row hi
  refine ⟨nibbles, value, fun i hi => ?_, fun i hi => ?_⟩
  · simpa only [transmittedBit, Nat.sub_add_eq] using nibbles i hi
  · simpa only [transmittedBit, Nat.sub_add_eq] using value i hi

/-! ### The five nibbles of a row on the wire -/

/-- The `m`-th group of four transmitted bits, the first one lowest. -/
def wireNibble (row : Row) (m : Nat) : Nibble := BitVec.ofFnLE fun b : Fin 4 => transmittedBit row (4 * m + b)

theorem getElem_wireNibble (row : Row) (m : Nat) {b : Nat} (h : b < 4) :
    (wireNibble row m)[b] = transmittedBit row (4 * m + b) := by
  rw [wireNibble, BitVec.getElem_ofFnLE]

theorem loNibble_nb0 (row : Row) : loNibble (Claims.nb0 row) = wireNibble row 0 :=
  BitVec.eq_of_getElem_eq fun i hi => by
    rw [getElem_loNibble _ i hi, getElem_wireNibble _ _ hi, getLsbD_nb0 row (by omega), Nat.mul_zero, Nat.zero_add]

theorem hiNibble_nb0 (row : Row) : hiNibble (Claims.nb0 row) = wireNibble row 1 :=
  BitVec.eq_of_getElem_eq fun i hi => by
    rw [getElem_hiNibble _ i hi, getElem_wireNibble _ _ hi, getLsbD_nb0 row (by omega)]

theorem loNibble_nb1 (row : Row) : loNibble (Claims.nb1 row) = wireNibble row 2 :=
  BitVec.eq_of_getElem_eq fun i hi => by
    rw [getElem_loNibble _ i hi, getElem_wireNibble _ _ hi, getLsbD_nb1 row (by omega)]

theorem hiNibble_nb1 (row : Row) : hiNibble (Claims.nb1 row) = wireNibble row 3 :=
  BitVec.eq_of_getElem_eq fun i hi => by
    rw [getElem_hiNibble _ i hi, getElem_wireNibble _ _ hi, getLsbD_nb1 row (by omega), ← Nat.add_assoc]

theorem csumRxOf_nb2 (row : Row) : csumRxOf (Claims.nb2 row) = wireNibble row 4 :=
  BitVec.eq_of_getElem_eq fun i hi => by
    rw [csumRxOf, getElem_loNibble _ i hi, getElem_wireNibble _ _ hi, getLsbD_nb2 row hi]

/-- CSUM_CALC is addition of nibbles, in which nothing but the carry is lost (R95). -/
theorem csumCalc_eq_add (n0 n1 : Byte) :
    csumCalc n0 n1 = hiNibble n0 + loNibble n0 + hiNibble n1 + loNibble n1 := by
  simp only [csumCalc, nibbleSum, BitVec.ofNat_add, BitVec.ofNat_toNat, BitVec.setWidth_eq]

/-- CSUM_CHECK of a row's bytes is the checksum condition on its instruction (R97). -/
theorem csumOk_normalizeRow (row : Row) :
    csumOk (normalizeRow row).n0 (normalizeRow row).n1 (normalizeRow row).n2 = (decode row).checksumWellFormed := by
  rw [← frameBytes_decode]
  exact csumOk_frame _ _ _ _

/-- The checksum condition on the wire: the first four nibbles add up to the fifth. -/
theorem checksumWellFormed_decode_iff (row : Row) :
    (decode row).checksumWellFormed = true ↔
      wireNibble row 1 + wireNibble row 0 + wireNibble row 3 + wireNibble row 2 = wireNibble row 4 := by
  rw [← csumOk_normalizeRow, normalizeRow_eq, csumOk_iff, csumCalc_eq_add, hiNibble_nb0, loNibble_nb0, hiNibble_nb1,
    loNibble_nb1, csumRxOf_nb2]

/-! ### A single wrong bit (R96) -/

/-- The row with transmitted bit `t_i` flipped. -/
abbrev flipBit (row : Row) (i : Nat) : Row := row ^^^ (1#24 <<< (23 - i))

theorem transmittedBit_flipBit (row : Row) {i j : Nat} (hi : i < 24) (hj : j < 24) :
    transmittedBit (flipBit row i) j = (transmittedBit row j ^^ decide (j = i)) := by
  have place : (1#24 <<< (23 - i)).getLsbD (23 - j) = decide (j = i) := by
    rw [BitVec.getLsbD_shiftLeft, BitVec.getLsbD_one]
    grind
  rw [transmittedBit, BitVec.getLsbD_xor, place, transmittedBit]

theorem wireNibble_flipBit_of_ne (row : Row) {i m : Nat} (hi : i < 20) (hm : m < 5) (h : m ≠ i / 4) :
    wireNibble (flipBit row i) m = wireNibble row m :=
  BitVec.eq_of_getElem_eq fun b hb => by
    have other : 4 * m + b ≠ i := by omega
    rw [getElem_wireNibble _ _ hb, getElem_wireNibble _ _ hb, transmittedBit_flipBit row (by omega) (by omega),
      decide_eq_false other, Bool.xor_false]

theorem wireNibble_flipBit_ne (row : Row) {i : Nat} (hi : i < 20) :
    wireNibble (flipBit row i) (i / 4) ≠ wireNibble row (i / 4) := by
  intro same
  have hb : i % 4 < 4 := Nat.mod_lt i (by decide)
  have flipped := transmittedBit_flipBit row (i := i) (j := i) (by omega) (by omega)
  have bit : (wireNibble (flipBit row i) (i / 4))[i % 4] = (wireNibble row (i / 4))[i % 4] := by rw [same]
  rw [getElem_wireNibble _ _ hb, getElem_wireNibble _ _ hb, Nat.div_add_mod, flipped] at bit
  simp at bit

/-- One wrong nibble among five spoils the sum: whichever it is, the other four are kept and cancel between the two
equations. -/
theorem checksumWellFormed_decode_flipBit {row : Row} {i : Nat} (hi : i < 20)
    (good : (decode row).checksumWellFormed = true) : (decode (flipBit row i)).checksumWellFormed = false := by
  rw [← Bool.not_eq_true]
  intro stillGood
  rw [checksumWellFormed_decode_iff] at good stillGood
  have wrong := wireNibble_flipBit_ne row hi
  have kept := fun m (hm : m < 5) => wireNibble_flipBit_of_ne row hi hm
  have group : i / 4 < 5 := by omega
  generalize i / 4 = g at wrong kept group
  interval_cases g <;> grind

/-- A row edge of length 20 whose checksum disagrees loads ERR_CSUM and raises no record strobe (R96, R169). -/
theorem rowEdge_of_csumOk_eq_false {s : State} {fb : FrameBytes} (hlen : (portsNow s).inLen = 20)
    (hcsum : csumOk fb.n0 fb.n1 fb.n2 = false) :
    (rowEdge fb s).rStatus = Status.errCsum.code ∧ outRecord (rowEdge fb s) = false := by
  have status : (rowResult (portsNow s).inLen fb).status = .errCsum := by
    rw [rowResult, (lenOk_iff _).mpr hlen, hcsum, statusOf_true_false]
  rw [rowEdge_rStatus, outRecord_rowEdge, status]
  exact ⟨rfl, rfl⟩

/-- Settles O12: the flipped row fails the checksum condition, and so its edge gives ERR_CSUM. -/
theorem everySingleBitErrorIsCaught : Obligations.EverySingleBitErrorIsCaught := by
  intro row i b s hi good
  have disagrees := (csumOk_normalizeRow _).trans (checksumWellFormed_decode_flipBit hi good)
  exact ⟨_, step_presentNext_of_row (p := rowPorts 20 (flipBit row i) b) rfl rfl s,
    rowEdge_of_csumOk_eq_false rfl disagrees⟩

/-! ### Which rows of length 20 get ERR_CSUM (R96) -/

theorem statusCode_eq_two_iff {len : RowLen} (hlen : len.toNat = 20) (agrees valid : Bool) :
    Claims.statusCode len agrees valid = 2 ↔ agrees = false := by
  rw [Claims.statusCode, if_neg (not_not_intro hlen)]
  cases agrees <;> cases valid <;> decide

/-- Settles O11: with the length good, the status of an instruction's edge is 2 exactly for a disagreeing
checksum; the all-zero frame agrees and has the invalid code 0. -/
theorem checksumCheckDecidesErrCsum : Obligations.ChecksumCheckDecidesErrCsum := by
  refine ⟨?compares, ?decides, by decide, by decide, by decide, ?zeroFrame⟩
  case compares =>
    intro n0 n1 n2
    rw [csumOk_eq_beq, beq_iff_eq, Claims.csumOfBytes]
  case decides =>
    intro i s hlen
    exact ⟨_, exec_eq_afterFrame i s, statusCode_eq_two_iff (by rw [hlen]; rfl) _ _⟩
  case zeroFrame =>
    intro s hlen
    have zero : decode 0x000000 = .ofCode 0 15 0 0 := by decide
    rw [zero]
    refine ⟨_, exec_ofCode_of_romEntry_invalid rfl 15 0 0 s, ?_⟩
    have commandRejected : Claims.statusCode 20 (Claims.csumNat 0 15 0 == 0) false = 3 := by decide
    rw [← commandRejected, ← hlen]
    rfl

end Sys2Proof.Proofs
end

section
/-! The consistency of the registers (10_state.md R24 to R30, 45_row_pipeline.md R145): it holds after reset, every
edge keeps it, and a consistent state never refuses its record (44_command_rom.md R136, R137). -/

namespace Sys2Proof.Proofs

open Sys2Proof.Machine

/-! ### The invariant after each kind of edge -/

/-- Settles O39: the data registers are cleared, and no row has been presented. -/
theorem resetStateIsConsistent : Obligations.ResetStateIsConsistent := by
  unfold Obligations.ResetStateIsConsistent
  decide

/-- The passing of an edge's inputs touches no register. -/
theorem consistent_nextCycle {s : State} (h : s.consistent) : (nextCycle s).consistent := h

theorem consistent_resetEdge (s : State) : (resetEdge s).consistent := resetStateIsConsistent

/-- An idle edge holds the data registers, and nothing is recorded in its result cycle (R155). -/
theorem consistent_idleEdge {s : State} (h : s.consistent) : (idleEdge s).consistent := by
  obtain ⟨data, -⟩ := h
  refine ⟨data.imp id fun ⟨cleared, _⟩ => ⟨cleared, rfl⟩, fun strobe => ?_⟩
  rw [outRecord_idleEdge] at strobe
  exact absurd strobe Bool.false_ne_true

/-- The status of a row is ERR_LEN or what the other two checks say. -/
theorem rowResult_status_cases (len : RowLen) (fb : FrameBytes) :
    (rowResult len fb).status = .errLen ∨
      (rowResult len fb).status =
        statusOf true (csumOk fb.n0 fb.n1 fb.n2) (romValid (memRead (commandOf fb.n0))) := by
  cases hlen : lenOk len with
  | false => left; rw [rowResult, hlen, statusOf_false_left]
  | true => right; rw [rowResult, hlen]

/-- A row edge loads the datapath's functions of the Frame Bytes (R145). -/
theorem holdsRow_rowEdge {fb : FrameBytes} (padding : hiNibble fb.n2 = 0) (s : State) : (rowEdge fb s).holdsRow :=
  ⟨padding, rfl, rfl, rfl, rfl, rfl, rfl, rfl,
    (rowResult_status_cases _ fb).imp (congrArg Status.code) (congrArg Status.code)⟩

/-- A row that records is a hit for the batch flag, whether it opens a batch or not (R150). -/
theorem rBatchOk_rowEdge_of_outRecord {fb : FrameBytes} {s : State} (h : outRecord (rowEdge fb s) = true) :
    (rowEdge fb s).rBatchOk = true := by
  rw [outRecord_rowEdge] at h
  rw [rowEdge_rBatchOk, batchNext_eq, h]
  simp

theorem consistent_rowEdge {fb : FrameBytes} (padding : hiNibble fb.n2 = 0) (s : State) :
    (rowEdge fb s).consistent :=
  ⟨.inl (holdsRow_rowEdge padding s), rBatchOk_rowEdge_of_outRecord⟩

/-- Settles O38: the three kinds of edge one by one; the Frame Bytes of an instruction have no padding. -/
theorem everyStepKeepsTheRegistersConsistent : Obligations.EveryStepKeepsTheRegistersConsistent := by
  intro s t hs hstep
  obtain ⟨-, rfl⟩ | ⟨-, -, rfl⟩ | ⟨-, -, i, -, rfl⟩ := step_cases hstep
  · exact consistent_nextCycle (consistent_resetEdge s)
  · exact consistent_nextCycle (consistent_idleEdge hs)
  · exact consistent_nextCycle (consistent_rowEdge (hiNibble_joinNibbles 0 i.csum) s)

/-! ### The record of a consistent state (R136, R137) -/

/-- A row that holds status OK has passed the command check (R169). -/
theorem romValid_of_holdsRow {s : State} (h : s.holdsRow) (status : s.rStatus = 0) :
    romValid (memRead s.rCommand) = true := by
  obtain ⟨-, -, -, -, -, -, -, -, hlen | hchecks⟩ := h
  · exact absurd (hlen.symm.trans status) (by decide)
  · obtain ⟨-, -, valid⟩ := (statusOf_eq_ok_iff _ _ _).mp ((code_eq_zero_iff _).mp (hchecks.symm.trans status))
    exact valid

/-- The codes of a consistent state that records are those of a defined command. -/
theorem codes_of_consistent {s : State} (h : s.consistent) (strobe : outRecord s = true) :
    s.rCategory ∈ ([1, 2, 3, 4] : List Code3) ∧ s.rRender ∈ ([1, 2, 3, 4, 5] : List Code3) := by
  rw [outRecord, Bool.and_eq_true, beq_iff_eq] at strobe
  obtain ⟨valid, status⟩ := strobe
  obtain ⟨row | ⟨-, noRow⟩, -⟩ := h
  · have defined := romValid_of_holdsRow row status
    rw [romValid_memRead] at defined
    obtain ⟨-, -, -, -, -, category, render, -, -⟩ := row
    rw [category, render, romCategory_memRead, romRender_memRead]
    exact romEntry_of_valid defined
  · exact absurd (noRow.symm.trans valid) Bool.false_ne_true

/-- Settles O40: without the strobe there is no record; with it, the codes have their names. -/
theorem consistentStateNeverRefusesItsRecord : Obligations.ConsistentStateNeverRefusesItsRecord := by
  intro s modelName deviceType hs
  cases strobe : outRecord s with
  | false => exact ⟨none, recordView_of_outRecord_eq_false strobe _ _, by simp⟩
  | true =>
    obtain ⟨hcategory, hrender⟩ := codes_of_consistent hs strobe
    obtain ⟨command, hcommand⟩ := exists_recordCommand_eq_ok hcategory
    obtain ⟨value, hvalue⟩ := exists_renderStr_eq_ok hrender s.rValue s.rVflag
    exact ⟨_, recordView_of_outRecord strobe hcommand hvalue _ _, by simp⟩

/-! ### The codes a record refuses -/

theorem recordCommand_eq_error {category : Code3} (h : category ∈ ([0, 5, 6, 7] : List Code3)) :
    recordCommand category = .error (.categoryNeverInRecord category) := by
  fin_cases h <;> rfl

theorem renderStr_eq_error {render : Code3} (h : render ∈ ([0, 6, 7] : List Code3)) (v : Byte) (f : Bool) :
    renderStr render v f = .error (.renderNeverInRecord render) := by
  fin_cases h <;> rfl

/-- A refused category refuses the record, whatever the render code. -/
theorem recordOf_of_recordCommand_eq_error {o : Outputs} {refusal : Refusal} (strobe : o.outRecord = true)
    (h : recordCommand o.outCategory = .error refusal) (modelName deviceType : String) :
    recordOf modelName deviceType o = .error refusal := by
  rw [recordOf, if_pos strobe, h]

/-- A refused render code refuses the record, since the category is either refused before it or named. -/
theorem exists_recordOf_eq_error_of_renderStr {o : Outputs} {refusal : Refusal} (strobe : o.outRecord = true)
    (h : renderStr o.outRender o.outValue o.outVflag = .error refusal) (modelName deviceType : String) :
    ∃ r, recordOf modelName deviceType o = .error r := by
  cases hcommand : recordCommand o.outCategory with
  | error r => exact ⟨r, recordOf_of_recordCommand_eq_error strobe hcommand _ _⟩
  | ok command => exact ⟨refusal, by rw [recordOf, if_pos strobe, hcommand, h]⟩

/-- Settles O43: the names are computed, and each refused code refuses the record that carries it. -/
theorem recordRefusesCodesNeverProduced : Obligations.RecordRefusesCodesNeverProduced := by
  refine ⟨⟨rfl, rfl, rfl, rfl, rfl⟩, fun _ => recordCommand_eq_error, fun _ => renderStr_eq_error, ?view⟩
  case view =>
    intro o modelName deviceType strobe codes
    obtain hcategory | hrender := codes
    · exact ⟨_, recordOf_of_recordCommand_eq_error strobe (recordCommand_eq_error hcategory) _ _⟩
    · exact exists_recordOf_eq_error_of_renderStr strobe (renderStr_eq_error hrender _ _) _ _

/-! ### The ROM -/

/-- Settles O14: all sixteen addresses, word by word and field by field. -/
theorem romHoldsTheSixteenWords : Obligations.RomHoldsTheSixteenWords :=
  ⟨by decide, romFields_memRead⟩

end Sys2Proof.Proofs
end

section
/-! One step on a row, on an idle cycle and after reset (45_row_pipeline.md R146 to R155, 60_exceptions.md R170,
70_reset_and_hazards.md R187). -/

namespace Sys2Proof.Proofs

open Sys2Proof.Machine

/-! ### A step with a row on the ports -/

/-- A step with a row is the decoded instruction, after which the edge's inputs are used up. -/
theorem step_eq_edgeDone_of_exec {s t : State} (hrst : (portsNow s).rst = false)
    (hvalid : (portsNow s).inValid = true) (hexec : exec (decode (portsNow s).inRow) s = .next t) :
    step s = .next (Claims.edgeDone t) := by
  rw [step_of_row hrst hvalid, hexec]
  rfl

/-- Settles O24: every instruction answers a next state. -/
theorem stepRunsTheDecodedInstruction : Obligations.StepRunsTheDecodedInstruction := by
  intro s hrst hvalid
  have hexec := exec_eq_rowEdge (decode (portsNow s).inRow) s
  exact ⟨_, hexec, step_eq_edgeDone_of_exec hrst hvalid hexec⟩

/-- 24 bits of a number always fit the port, and decode as the port's value (R72). -/
theorem decodeTableWord_portWidth (w : Nat) :
    decodeTableWord 24 w = some (decode (BitVec.ofNat 24 (w % 2 ^ 24))) :=
  if_pos (Nat.mod_lt w (Nat.two_pow_pos 24))

/-- Settles O25: `withFetchWord` puts on the ports the row that `decodeTableWord` decodes. -/
theorem placedWordRunsAtTheNextStep : Obligations.PlacedWordRunsAtTheNextStep := by
  intro s w _
  have hexec := exec_eq_rowEdge (decode (BitVec.ofNat 24 (w % 2 ^ 24))) (s.withFetchWord 24 w)
  exact ⟨_, _, decodeTableWord_portWidth w, hexec, step_eq_edgeDone_of_exec rfl rfl hexec, rfl⟩

/-- Settles O30: the strobe after a row is the full validity of its frame, and `r_valid` is set. -/
theorem rowRecordsExactlyWhenFullyValid : Obligations.RowRecordsExactlyWhenFullyValid := by
  intro s hrst hvalid
  have hexec := exec_eq_rowEdge (decode (portsNow s).inRow) s
  refine ⟨_, step_eq_edgeDone_of_exec hrst hvalid hexec, outRecord_rowEdge_iff_fullyValid _ s, ?_⟩
  rw [outRecord_eq_and_decide]
  exact decide_eq_true_iff

/-- Settles O32: both steps are the row edge of the same Frame Bytes at the same length. -/
theorem rowResultIsIndependentOfHistory : Obligations.RowResultIsIndependentOfHistory := by
  intro s s' hrst hrst' hvalid hvalid' hlen hrow
  refine ⟨_, _, step_eq_rowEdge hrst hvalid, step_eq_rowEdge hrst' hvalid', ?_⟩
  rw [← hrow]
  exact outputs_rowEdge_congr hlen _

/-! ### A rejected row (R82, R170) -/

/-- A row that is no hit leaves the batch flag as an edge without a row does (R150). -/
theorem batchAfterRow_of_ne_zero {status : BitVec 2} (h : status ≠ 0) (b start : Bool) :
    Claims.batchAfterRow b start status = if start then false else b := by
  rw [Claims.batchAfterRow, decide_eq_false h, Bool.or_false]

/-- Settles O23: the next state is the reference state of every row; of its fields only the status, the strobe
and the batch flag look at the rejection. -/
theorem rejectedRowIsLoadedWithoutARecord : Obligations.RejectedRowIsLoadedWithoutARecord := by
  intro i s rejected
  have hexec := exec_eq_afterFrame i s
  rw [romEntry_valid_code] at hexec
  have status : Claims.statusCode (portsNow s).inLen i.checksumWellFormed i.codeWellFormed ≠ 0 := by
    intro ok
    have valid : i.fullyValid (portsNow s).inLen = true := by
      rw [fullyValid_iff, lengthWellFormed, beq_iff_eq, ← statusCode_eq_zero_iff, ok]
    rw [rejected] at valid
    exact Bool.false_ne_true valid
  refine ⟨_, hexec, rfl, status, ?noRecord, rfl, batchAfterRow_of_ne_zero status _ _, rfl, rfl⟩
  case noRecord =>
    rw [outRecord_eq_and_decide]
    exact decide_eq_false status

/-! ### Bit rows of any length (R146) -/

/-- The port shows the row's own bits, as far as both reach. -/
theorem transmittedBit_packRow {bits : List Bool} {i : Nat} (hi : i < 24) (hlength : i < bits.length)
    (filler : Row) : transmittedBit (packRow bits filler) i = bits.getD i false := by
  have slot : 23 - i < 24 := by omega
  have place : 23 - (23 - i) = i := by omega
  rw [transmittedBit, BitVec.getLsbD_eq_getElem slot, packRow, BitVec.getElem_ofFnLE, place,
    List.getD_eq_getElem _ _ hlength, List.getD_eq_getElem _ _ hlength]

/-- Saturation makes no other count look like 20 (R31, R80). -/
theorem toNat_packLen_eq_twenty_iff (bits : List Bool) : (packLen bits).toNat = 20 ↔ bits.length = 20 := by
  rw [packLen, BitVec.toNat_ofNat]
  omega

theorem statusOf_true_ne_errLen (csumOk cmdOk : Bool) : statusOf true csumOk cmdOk ≠ .errLen := by
  cases csumOk <;> cases cmdOk <;> decide

/-- With the length good no row gets ERR_LEN. -/
theorem rowEdge_rStatus_ne_one {s : State} (hlen : (portsNow s).inLen.toNat = 20) (fb : FrameBytes) :
    (rowEdge fb s).rStatus ≠ 1 := by
  rw [rowEdge_rStatus, rowResult, (lenOk_iff_toNat _).mpr hlen]
  exact fun h => statusOf_true_ne_errLen _ _ (code_injective (b := .errLen) h)

/-- Settles O33: the length gate sees the true count, and the fields of a row of 20 bits are the transmitted
bits of R110. -/
theorem bitRowsOfAnyLengthAreGatedAndDecoded : Obligations.BitRowsOfAnyLengthAreGatedAndDecoded := by
  intro bits filler b s
  have wire (htwenty : bits.length = 20) {i : Nat} (hi : i < 20) :
      transmittedBit (packRow bits filler) i = bits.getD i false :=
    transmittedBit_packRow (by omega) (by omega) filler
  refine ⟨_, step_presentNext_of_row (p := frameSourcePorts bits filler b) rfl rfl s, fun hother => ?other,
    fun htwenty => ⟨?status, fun j hj => ?nibbles, fun j hj => ?value⟩⟩
  case other =>
    exact rowEdge_of_toNat_ne (s := presentNext (frameSourcePorts bits filler b) s)
      ((toNat_packLen_eq_twenty_iff bits).not.mpr hother) _
  case status =>
    exact rowEdge_rStatus_ne_one (s := presentNext (frameSourcePorts bits filler b) s)
      ((toNat_packLen_eq_twenty_iff bits).mpr htwenty) _
  case nibbles =>
    rw [normalizeRow_eq, nextCycle_rChannel, nextCycle_rCommand, nextCycle_rNb2, rowEdge_rChannel, rowEdge_rCommand,
      rowEdge_rNb2, getLsbD_channelOf_nb0 _ hj, getLsbD_commandOf_nb0 _ hj, getLsbD_nb2 _ hj]
    exact ⟨congrArg not (wire htwenty (by omega)), wire htwenty (by omega), wire htwenty (by omega)⟩
  case value =>
    rw [normalizeRow_eq, nextCycle_rValue, rowEdge_rValue, valueOf, getLsbD_nb1 _ hj]
    exact wire htwenty (by omega)

/-! ### Cycles without a row (R155, R187) -/

/-- Settles O28: the idle edge, with the batch flag as a choice between its two cases. -/
theorem idleEdgeHoldsTheDataRegisters : Obligations.IdleEdgeHoldsTheDataRegisters := by
  intro s hrst hvalid
  rw [step_of_idle hrst hvalid, idleEdge_eq]
  cases (portsNow s).batchStart <;> rfl

/-- A reset edge clears every register (R185). -/
theorem registersCleared_of_step_reset {s t : State} (h : step s = .next t) (hrst : (portsNow s).rst = true) :
    Claims.RegistersCleared t := by
  rw [step_of_reset hrst] at h
  cases h
  rfl

/-- Registers that are 0 stay 0 at an edge without a row, be it a reset edge or an idle one. -/
theorem registersCleared_of_step {s t : State} (h : step s = .next t) (hs : Claims.RegistersCleared s)
    (hvalid : (portsNow s).inValid = false) : Claims.RegistersCleared t := by
  cases hrst : (portsNow s).rst with
  | true => exact registersCleared_of_step_reset h hrst
  | false =>
    rw [step_of_idle hrst hvalid] at h
    cases h
    have flag : s.rBatchOk = false := congrArg State.rBatchOk hs
    rw [idleEdge_eq, flag, Bool.and_false, hs]
    rfl

/-- The invariant over any number of edges without a row. -/
theorem exists_run_registersCleared (ps : List Ports) {rest : List Ports} {s : State}
    (hinputs : s.inputs = ps ++ rest) (hs : Claims.RegistersCleared s) (hvalid : ∀ q ∈ ps, q.inValid = false) :
    ∃ t, Sys2Proof.core.run ps.length s = .next t ∧ Claims.RegistersCleared t ∧ t.inputs = rest := by
  induction ps generalizing s with
  | nil => exact ⟨s, run_zero s, hs, hinputs⟩
  | cons p ps ih =>
    obtain ⟨hp, hps⟩ := List.forall_mem_cons.mp hvalid
    have ports : portsNow s = p := portsNow_of_inputs hinputs
    obtain ⟨t, hstep⟩ := exists_step_eq_next s
    have ht := registersCleared_of_step hstep hs (ports ▸ hp)
    obtain ⟨u, hrun, hu⟩ := ih ((inputs_of_step hstep).trans (congrArg List.tail hinputs)) ht hps
    exact ⟨u, (run_succ_of_next hstep).trans hrun, hu⟩

/-- Cleared registers show the outputs of the reset state, since no output port reads anything else (R32). -/
theorem outputs_of_registersCleared {s : State} (h : Claims.RegistersCleared s) : outputs s = outputs State.reset := by
  rw [h]
  rfl

/-- Settles O36: the reset edge clears the registers, and the edges after it keep them so. -/
theorem outputsStayClearAfterResetUntilARow : Obligations.OutputsStayClearAfterResetUntilARow := by
  intro p ps rest s hinputs hrst hvalid
  have ports : portsNow s = p := portsNow_of_inputs hinputs
  obtain ⟨t, hstep⟩ := exists_step_eq_next s
  have ht := registersCleared_of_step_reset hstep (ports ▸ hrst)
  obtain ⟨u, hrun, hu, hrest⟩ :=
    exists_run_registersCleared ps ((inputs_of_step hstep).trans (congrArg List.tail hinputs)) ht hvalid
  exact ⟨u, (run_succ_of_next hstep).trans hrun, hu, hrest, outputs_of_registersCleared hu⟩

end Sys2Proof.Proofs
end
